-- ==== Sys2Proof/Word.lean ====
section
/-! DEFINITION. The word types of the KH820: 32-bit registers (02 R32), bytes, and the small bit-vector names used
everywhere. -/

namespace Sys2Proof

/-- A register word: every register is 32 bits wide (02 R32). -/
abbrev Word := BitVec 32

/-- One byte of a packet, an option image or a memory. -/
abbrev Byte := BitVec 8

/-- A 16-bit register-space byte address or a 16-bit request field (02 R32, 07 Table 7.6). -/
abbrev Half := BitVec 16

end Sys2Proof
end

