-- ==== Sys2Proof/Syntax.lean ====
section
/-! DEFINITION. The commands of the KH820, one constructor per row of spec/opcode_table.json, and their operand types.
A command is one happening at the hub's pins, rails, timers, engines, registers or endpoints; its operands are what the
outside world adds to it (the value written, the bytes of the packet, the level the regulator gives). -/

namespace Sys2Proof

/-- The supply rails whose validity the hub senses (03 Table 3.3, R61). -/
inductive Rail where
  | aon | core | ioL | ioG
  deriving DecidableEq, Repr

/-- A downstream port, 0 to 7 (01 Table 1.4). -/
abbrev Port := Fin 8

/-- A virtual instance, 0 to 3 (01 Table 1.4). -/
abbrev Inst := Fin 4

/-- A Jexast channel: 0 is A, 1 is B (01 Table 1.4). -/
abbrev Chan := Fin 2

/-- The register pages (02 Table 2.1). -/
inductive Blk where
  | sys | pin | clk | rst | opt | bkp | pwr | flt | upl | hub | ttb
  | prt (n : Port) | xlt | jx (c : Chan) | mbr | mvf (i : Inst) | dbg
  deriving DecidableEq, Repr

/-- The two functions behind port I (08 R193). -/
inductive Func where
  | hub | bridge
  deriving DecidableEq, Repr

/-- The causes of a lock-up reset that are not a fatal escalation (05 R126, Table 5.10). -/
inductive LkpKind where
  | timeout | parity
  deriving DecidableEq, Repr

/-- What the packet SRAM gives when a slot, a record or an entry is read: how many of its words are corrected, or none where
one is uncorrectable (02 Table 2.12). -/
abbrev SramRead := Option Nat

/-- How an option codeword decodes (05 Table 5.12 RESULT). -/
inductive CwCond where
  | clean | corrected | uncorrectable
  deriving DecidableEq, Repr

/-- A packet on a lane, as a receiver samples it: the 16 delimiter bits, the 32 header bits, the payload bytes and the four
CRC bytes that follow them (07 R166, Table 7.1), and whether it came at x2 (06 R144). -/
structure RawPkt where
  delim   : BitVec 16
  header  : BitVec 32
  payload : List Byte
  crc     : BitVec 32
  x2      : Bool
  deriving DecidableEq, Repr

/-- The eight bytes of a SETUP, by field (07 Table 7.6). -/
structure Setup where
  rtype   : Byte
  request : Byte
  value   : Half
  index   : Half
  length  : Half
  deriving DecidableEq, Repr

/-- What comes back on a Basic lane for an item (10 Table 10.3): a handshake, a data packet with its SEQ and bytes
(no bytes: DATAZ), nothing, or a packet that failed its checks. -/
inductive ChipAnswer where
  | ack | nrdy | stall | data (seq : Bool) (bytes : List Byte) | absent | failed
  deriving DecidableEq, Repr

/-- Position of a page's header in `the state's headers`. -/
def Blk.idx : Blk → Fin 28
  | .sys => 0 | .pin => 1 | .clk => 2 | .rst => 3 | .opt => 4 | .bkp => 5 | .pwr => 6 | .flt => 7
  | .upl => 8 | .hub => 9 | .ttb => 10
  | .prt n => ⟨11 + n.val, by omega⟩
  | .xlt => 19
  | .jx c => ⟨20 + c.val, by omega⟩
  | .mbr => 22
  | .mvf i => ⟨23 + i.val, by omega⟩
  | .dbg => 27

/-- The error kinds of 11 Table 11.3, with the codes 1 to 5 of JXx_LASTERR.KIND in order. -/
inductive ErrKind where
  | bit | stuff | crc | form | ack
  deriving DecidableEq, Repr

/-- Where on the wire an error was detected: FIELD and BIT of 11 Table 11.10 (0x205C). -/
structure ErrAt where
  kind  : ErrKind
  field : BitVec 4
  bit   : BitVec 10
  deriving DecidableEq, Repr

/-- How a transmit attempt ends (12 Table 12.5). For a lost arbitration: the ID that won. For an error: whether an error-passive transmitter with an ACK error
sampled no dominant bit during its passive flag (11 Table 11.4). -/
inductive TxOutcome where
  | sent | arbLost (winner : BitVec 24) | error (at_ : ErrAt) (silent : Bool) | damaged
  deriving DecidableEq, Repr

/-- The rest of the frame that a channel receives, as it is handed over (11 R285, 13 R332): data, received CRC, the filter
words whose parity the engine finds failing, and whether the receive buffer or the suppressor copy has an uncorrectable
error (01 R30). -/
structure RxFrame where
  data     : List Byte
  crc      : BitVec 21
  badWords : List (Fin 512)
  damaged  : Bool
  copyDamaged : Bool
  deriving DecidableEq, Repr

/-- What the memories give in a REG_READ: the words whose parity fails, with RXWIN0 once for each uncorrectable entry it
meets at the head of its queue, and how many words of the packet SRAM are corrected. -/
structure RdErr where
  bad  : List Half
  corr : Nat
  deriving DecidableEq, Repr

/-- The OUT-direction packets for a translated port (10 R246). -/
inductive OutKind where
  | out | outz | setup | sout
  deriving DecidableEq, Repr

/-- The commands, in the order of spec/opcode_table.json's chapters. -/
inductive Instr where
  -- Reset and bring-up (03, 05)
  | railValid (r : Rail)
  | por
  | porRelease
  | bor (r : Rail)
  | borRelease (r : Rail)
  | pin (duringDrive : Bool)
  | wdg
  | wdgwarn
  | clf
  | clfRelease
  | lkp (kind : LkpKind) (block : Byte)
  | rstSwr (key : Half)
  | swr
  | dbgReset (rtype : Byte) (value index length : Half)
  | dbg
  | fuseSense
  | stretchEnd
  | resetPhaseEnd
  | edgeWaitEnd
  | group1Release (pads : Fin 4)
  | memoryInitialisationEnd
  | group2Release
  | group3Release
  | group4Release
  | group5Release (length : Nat)
  | wdgKickFirst
  | wdgKickSecond
  -- Block control (02, 05)
  | brst (b : Blk) (fence unfence : Bool)
  | blockResetOpen (b : Blk)
  | fence (b : Blk)
  | unfence (b : Blk)
  | ctlEn (b : Blk) (en : Bool)
  | registerWrite (addr : Half) (val : Word)
  -- Clock (04)
  | localLk0
  | frameStart (frame : BitVec 16)
  | fsmiss
  | clkCtcapCap
  | clkLvlReq (level : Fin 4)
  | vminWaitEnd
  | pgoodQualification (late : Bool)
  | pgto
  | pglost (highSeen : Bool)
  | clkDivWrite (c : Chan) (val : Word)
  | udTrimApply
  -- Fuses, option bytes, memories (03, 05)
  | fprogProgram (val : Word) (vppOk : Bool)
  | fprogVerify (val : Word)
  | fprogProgramDone (took : Bool)
  | fprogVerifyDone
  | optProgProgram (val : Word) (vppOk : Bool)
  | optProgVerify (val : Word) (vppOk : Bool)
  | optProgProgramDone (cond : CwCond)
  | optProgVerifyDone
  | rtmRead (w : Fin 256) (parityOk : Bool)
  | rtmWrite (w : Fin 256) (val : Word)
  | mbrCfgLowclr
  -- Power (14)
  | clockStop
  | clockReturn (pattern : Bool)
  | parkService
  | wakePattern
  | samplingBurst (sample : BitVec 18)
  | samplingBurstEnd (edges : Nat)
  | wakeSource (code : Fin 22)
  | pwrReqPark
  | pwrReqRetain
  | pwrReqHeron
  | propose
  | delayMax (bit : Fin 21)
  | agreed
  | nopoll
  | hostlate
  -- Faults (15)
  | reaction (source : Fin 21)
  | fltStatClear (mask : Word)
  | pwrunf
  -- Upstream link (06, 07)
  | upstreamPortReset
  | linkReset
  | chirp
  | chirpAnswerAccepted
  | chirpAnswerTimeout
  | connectRetry
  | widthFixed (confirmed : Bool)
  | linkup
  | probe (lows : Nat)
  | upstreamSuspend
  | upstreamResume (quiet : Byte)
  | hubRemoteWake
  | transactionStart (p : RawPkt)
  | responseRepeat (p : RawPkt)
  | responseWindowClose
  | handshakeWindowClose
  | babblePoint (driving : Byte)
  | ttbResWrite (t : Fin 9) (val : Word)
  -- Hub and bridge functions (07, 08)
  | ep0Setup (f : Func) (seq : Bool) (s : Setup)
  | ep0Out (f : Func) (seq : Bool) (payload : List Byte)
  | ep0Outz (f : Func) (seq : Bool)
  | ep0In (f : Func) (seq : Bool) (len : BitVec 10)
  | ep1Poll (seq : Bool) (len : BitVec 10)
  | ack (addr : BitVec 7) (ep : BitVec 4) (seq : Bool) (x2 : Bool)
  | getDesc (f : Func) (value index length : Half)
  | setAddr (f : Func) (value index length : Half)
  | setConfig (f : Func) (value index length : Half)
  | getConfig (f : Func) (value index length : Half)
  | getStatus (f : Func) (endpoint : Bool) (value index length : Half)
  | clrHalt (f : Func) (value index length : Half)
  | setHalt (f : Func) (value index length : Half)
  | setWake (f : Func) (value index length : Half)
  | getHubDesc (f : Func) (value index length : Half)
  | getPortStatus (f : Func) (value index length : Half)
  | setPortFeatPower (index : Half)
  | setPortFeatReset (index : Half)
  | setPortFeatSuspend (index : Half)
  | clrPortFeatPower (index : Half)
  | clrPortFeatSuspend (index : Half) (quiet : Bool)
  | clrPortFeatEnable (index : Half)
  | bridgeDefaultState
  | setRoute (f : Func) (value index length : Half)
  | getRoute (f : Func) (value index length : Half)
  | instReset (f : Func) (value index length : Half)
  | regRead (f : Func) (value index length : Half) (err : RdErr) (abandoned : Option Nat)
  | regReadResume (f : Func) (err : RdErr)
  | regWrite (f : Func) (value index length : Half) (executed : Nat)
  -- Downstream ports (09)
  | reset (n : Port)
  | suspend (n : Port)
  | resume (n : Port) (quiet : Bool)
  | disable (n : Port)
  | pwrenRise (n : Port)
  | faultBlankingEnd (n : Port)
  | settleEnd (n : Port)
  | overcurrent (n : Port) (low : Bool)
  | connect (n : Port)
  | connectWithdrawn (n : Port)
  | attach (n : Port)
  | detach (n : Port)
  | forcedPhaseEnd (n : Port)
  | chirpAccepted (n : Port)
  | chirpError (n : Port)
  | resetEnd (n : Port)
  | selfReset (n : Port)
  | missedProbe (n : Port) (highSeen : Bool)
  | unsolicitedDrive (n : Port)
  | suspendPoint (n : Port) (quiet : Bool)
  | resumeDriveStart (n : Port)
  | resumeEnd (n : Port)
  | remoteWake (n : Port)
  -- Translator (10)
  | xltOutPacket (n : Port) (kind : OutKind) (addr : BitVec 7) (ep : BitVec 4) (seq : Bool) (payload : List Byte)
  | xltInToken (n : Port) (sin : Bool) (addr : BitVec 7) (ep : BitVec 4) (seq : Bool) (len : BitVec 10) (ecc : SramRead)
  | itemStart (n : Port) (ecc : SramRead)
  | itemOutcome (n : Port) (a : ChipAnswer)
  | backoffEnd (n : Port) (group : Fin 32)
  | xltDrop (val : Word)
  | basicFstartQuietWindowStart (n : Port)
  -- Jexast (11)
  | busIdle (c : Chan)
  | selection (c : Chan) (sof : Option (BitVec 24))
  | attemptOutcome (c : Chan) (o : TxOutcome)
  | errorDetected (c : Chan) (at_ : ErrAt) (bad : List (Fin 512))
  | recover (c : Chan)
  | busOffRecoveryComplete (c : Chan)
  | idle (c : Chan) (strobes : Nat)
  | stuck (c : Chan) (strobes : Nat)
  | noidle (c : Chan)
  | censtart (c : Chan)
  | censtop (c : Chan)
  | censusResponse (c : Chan) (response : Option (BitVec 48 × Half))
  | cendone (c : Chan)
  | hello (c : Chan) (len : Nat) (uid : BitVec 48) (info : Half)
  -- Bridge, receive (13)
  | frameHandOver (c : Chan) (f : RxFrame)
  | entryQueued (i : Inst)
  | aged (i : Inst)
  | rxwin0Read (i : Inst) (ecc : List SramRead)
  | waitexp (f : Func) (i : Inst) (err : RdErr)
  | rxwin19Read (i : Inst)
  | rxcmdDrop (i : Inst)
  | rxcmdResend (i : Inst)
  | rxack (i : Inst) (upto : Half)
  | bulkIn (i : Inst) (seq : Bool) (len : BitVec 10) (ecc : List SramRead)
  | urgentIn (i : Inst) (sin : Bool) (seq : Bool) (len : BitVec 10) (ecc : List SramRead)
  | mbrQuotaWrite (i : Inst) (val : Word)
  | mbrWmWrite (c : Chan) (val : Word)
  -- Bridge, transmit (12)
  | submit (i : Inst) (c : Chan) (buf : BitVec 2) (ctag : Byte)
  | cancel (i : Inst) (c : Chan) (buf : BitVec 2)
  | cancelAll (i : Inst)
  | flush (i : Inst)
  | bulkOut (i : Inst) (seq : Bool) (payload : List Byte)
  | stagedRecordMove (i : Inst) (ecc : SramRead)
  | completionQueueEntry (i : Inst)
  | txcompRead (i : Inst)
  deriving DecidableEq, Repr

end Sys2Proof
end

