-- ==== Sys2Proof/Decode.lean ====
section
/-! DEFINITION. The commands that a word of the table's bits spells. The KH820 is a block: spec/opcode_table.json gives
its rows operands (fields) and no bits, so no word spells a command. -/

namespace Sys2Proof

/-- The command that a word spells by the table's bits: none, as no row of the table has bits (log 14). -/
def decodeTableWord (_nbits _w : Nat) : Option Instr := none

end Sys2Proof
end

