-- ==== Sys2Proof/Config.lean ====
section
/-! DEFINITION. The free values: what the spec leaves open and the machine goes on with. Every constant here has no
body, so nothing can be proved of the number it gives (log 4). Each is applied to the counter `State.free`, which the
use advances, or to the data the open value depends on. -/

namespace Sys2Proof.Config

/-- Level that a pad presents when the spec fixes none: an input driven from outside, or a pad at hi-Z with no pull
(03 R76, R426; log 6). -/
opaque freeBit : Nat → Bool

/-- Levels of a group of input pads in one read (03 R76; log 6). -/
opaque freeWord : Nat → BitVec 32

/-- What a fuse senses as after a program pulse that a reset cut short (03 R71; log 8). -/
opaque freeFuse : Nat → Bool

/-- The data that an option codeword decodes to when it is uncorrectable or was cut short (05 R134, R137; log 9). -/
opaque freeCodeword : Nat → BitVec 64

/-- How a codeword whose pulse sequence a reset cut short decodes: 0 clean, 1 corrected, other uncorrectable
(05 R137; log 9). -/
opaque freeCond : Nat → Nat

/-- Whether the check bits of the new data would need a programmed check bit of the old data to return to 0
(05 R135): the spec does not give the SECDED code, so this is free in both data words (log 9). -/
opaque checkConflict : BitVec 64 → BitVec 64 → Bool

/-- LEN4 of a recorded REG_WRITE whose LENGTH the field cannot show (08 R206, Table 8.13; log 4). -/
opaque freeLen4 : Nat → BitVec 4

/-- The level to which the board's resistor pulls a configurable pin, by the pin's index; none where it fits none
(03 R72, R74, R426; log 6). -/
opaque boardPull : Nat → Option Bool

/-- Whether the board uses port `n`: a used PWRENn carries the pull-down of 03 R72 (03 R75; log 6). -/
opaque portUsed : Nat → Bool

end Sys2Proof.Config
end

