-- ==== Sys2Proof/Machine/Bits.lean ====
section
/-! DEFINITION. Bit fields, packing of register words, saturating counters and parity. -/

namespace Sys2Proof.Machine

/-- Bit `i` of a word. -/
def bitAt (w : Word) (i : Nat) : Bool := w.getLsbD i

/-- The field of `width` bits from bit `lo` up, as a number. -/
def fld (w : Word) (lo width : Nat) : Nat := (w.toNat >>> lo) % 2 ^ width

/-- A register word from its fields, each given as (lowest bit, value). -/
def pack : List (Nat × Nat) → Word
  | [] => 0
  | (lo, v) :: r => BitVec.ofNat 32 (v <<< lo) ||| pack r

/-- One bit as a number. -/
def b2n (b : Bool) : Nat := if b then 1 else 0

/-- The word with only bit `i` set. -/
def oneBit (i : Nat) : Word := BitVec.ofNat 32 (1 <<< i)

/-- The next value of a counter that saturates at `limit`. -/
def satInc (limit n : Nat) : Nat := if n < limit then n + 1 else n

/-- A counter plus `k`, saturating at `limit`. -/
def satAdd (limit n k : Nat) : Nat := min limit (n + k)

/-- The next value of a 16-bit counter that saturates at 0xFFFF. -/
def inc16 (n : Nat) : Nat := satInc 0xFFFF n

/-- XOR of all the bits of a word (03 R62). -/
def parityOf (w : Word) : Bool := (List.range 32).foldl (fun a i => xor a (w.getLsbD i)) false

/-- Byte `i` (0 to 3) of a word, byte 0 in bits [7:0]. -/
def byteOf (w : Word) (i : Nat) : Byte := BitVec.ofNat 8 (w.toNat >>> (8 * i))

/-- A word from its four bytes, LSB first. -/
def wordOf (b0 b1 b2 b3 : Byte) : Word := b3 ++ b2 ++ b1 ++ b0

/-- The four bytes of a word, LSB first. -/
def wordBytes (w : Word) : List Byte := [byteOf w 0, byteOf w 1, byteOf w 2, byteOf w 3]

/-- The words of a data stage, LSB first within each (00 R10). -/
def wordsOf : List Byte → List Word
  | a :: b :: c :: d :: r => wordOf a b c d :: wordsOf r
  | [_, _, _] => []
  | [_, _] => []
  | [_] => []
  | [] => []

/-- The two bytes of a 16-bit value, LSB first. -/
def halfBytes (h : Half) : List Byte := [BitVec.ofNat 8 h.toNat, BitVec.ofNat 8 (h.toNat >>> 8)]

/-- The word made of the first four bytes of a list, missing bytes 0. -/
def wordAt (l : List Byte) (i : Nat) : Word :=
  wordOf (l.getD i 0) (l.getD (i + 1) 0) (l.getD (i + 2) 0) (l.getD (i + 3) 0)

end Sys2Proof.Machine
end

