-- ==== Sys2Proof/Machine/State.lean ====
section
/-! DEFINITION. The state of the KH820: every register, counter, buffer, mode and pin that the spec gives the hub, as
plain data, with the queue of waiting commands. A field's default is its reset value. The model's own fields are named
as such (INVENTORY.md, State). -/

namespace Sys2Proof.Machine

/-! ### The common page header (02 §2.3) -/

/-- The header registers of one page and the state of its isolation wrapper (02 R36–R44, 05 R129). -/
structure Hdr where
  /-- CTL.EN; pages of class "none" and "reset" read 1 (R36). -/
  en         : Bool := true
  /-- STAT.SIDING: the block is fenced (R39). -/
  siding     : Bool := false
  /-- STAT.INRST: a Block reset is in progress (R38). -/
  inrst      : Bool := false
  /-- A FENCE of the CTL write that started the Block reset, or one written during it, keeps the block fenced at
  lk 255 (R37). -/
  fenceAfter : Bool := false
  /-- The Block reset in progress came from a function-level reset request (05 Table 5.10 FLR). -/
  flr        : Bool := false
  /-- `now` at lk 0 of the Block reset, and that CTL.EN was written after its lk 191 (05 Table 5.6). -/
  rstAt      : Nat := 0
  enKept     : Bool := false
  evtEn      : Word := 0x80000000
  evtPnd     : Word := 0
  err        : Word := 0
  /-- Edge events and errors of this local lk, which a clear in the same lk leaves set (00 R14). -/
  evtNew     : Word := 0
  errNew     : Word := 0
  /-- ERR at the end of the lk before: the error line as the Signal box sees it (15 R389). -/
  errLine    : Word := 0
  /-- SEV.LEVEL (R43). -/
  sev        : BitVec 2 := 0
  delayMax   : Byte := 0x10
  retain     : BitVec 2 := 0
  park       : BitVec 2 := 0
  deriving DecidableEq, Repr

/-! ### Pins and fuses (03) -/

/-- One sample of the pads that PIN_IN and 0x015C show: levels, and which of them the spec fixes (03 R76). -/
structure PadSample where
  /-- Bits 0 to 14 as 0x015C has them. -/
  out   : Half
  known : Half
  /-- DD0 to DD7. -/
  dd      : Byte
  ddKnown : Byte
  /-- The hub drives UD0 high. -/
  ud0     : Bool
  deriving DecidableEq, Repr

/-- A PIN_FPROG command in progress (03 R70). -/
inductive FpCmd where
  | program (bit : Nat) | verify (bit : Nat)
  deriving DecidableEq, Repr

structure Pins where
  /-- Rails that are valid (R61, R67). -/
  railAon    : Bool := true
  railCore   : Bool := true
  railL      : Bool := true
  railG      : Bool := true
  /-- The 192 one-time fuse bits themselves (R59). -/
  otp        : Vector Word 6 := Vector.replicate 6 0
  /-- PIN_FUSE0–5: the words of the last sense (Table 3.9). -/
  fuse       : Vector Word 6 := Vector.replicate 6 0
  /-- LOCK was programmed since the last sense (R70). -/
  lockProg   : Bool := false
  /-- The fuse map has been sensed for the pins on VDDIO_L and for those on VDDIO_G since the last Whole reset began
  (R61). -/
  sensedL    : Bool := true
  sensedG    : Bool := true
  /-- POR is among the sources of the Whole reset whose sense is awaited (R61, R63). -/
  porHiZ     : Bool := false
  /-- VDDIO_G has been below valid since the last sense, so its pins stay hi-Z until the next (R61). -/
  gHiZ       : Bool := false
  fpCmd      : Option FpCmd := none
  fpLastBit  : Nat := 0
  fpRefused  : Bool := false
  fpValue    : Bool := false
  /-- The pads at the rising edges that began this lk, the one before and the one before that (R76). -/
  pads       : Vector PadSample 3 := Vector.replicate 3 ⟨0x7300, 0x7FFF, 0, 0, false⟩
  deriving DecidableEq, Repr

/-! ### Reset controller (05) -/

/-- Where the reset sequencer stands: B1 to B4 of bring-up (05 Table 5.4), with B2 split at the release of RST_N, and
normal running. -/
inductive RstPhase where
  | b1 | b2 | b2Released | b3 | b4 | run
  deriving DecidableEq, Repr

/-- The reset sources with their codes 0 to 7 (05 Table 5.1). -/
inductive Source where
  | por | bor | pin | wdg | clf | lkp | swr | dbg
  deriving DecidableEq, Repr

/-- A Device- or wider reach orders below Whole (05 R119). The code is that of RST_CAUSE.REACH. -/
inductive Reach where
  | core | device | whole
  deriving DecidableEq, Repr

structure Rst where
  phase      : RstPhase := .run
  /-- Groups released so far in this bring-up (05 Table 5.5). -/
  group      : Nat := 5
  memInit    : Bool := true
  /-- Governing reach of the reset in progress, or of the last one (R119). -/
  reach      : Reach := .whole
  /-- Sources asserted since the reset phase began, first one first (R122). -/
  sources    : List Source := [.por]
  /-- Level sources asserted now (R106). -/
  porOn      : Bool := false
  borCoreOn  : Bool := false
  borIoOn    : Bool := false
  clfOn      : Bool := false
  /-- The reset is a Core reset that began while LINKUP was 1 (R108). -/
  keepLink   : Bool := false
  /-- RST_N is driven low by the hub (03 R66). -/
  rstDriven  : Bool := false
  borlow     : Bool := false
  /-- RST_CAUSE (Table 5.10). -/
  fesc       : Bool := false
  causeReach : BitVec 2 := 3
  causeFirst : BitVec 3 := 0
  causeSrc   : Byte := 1
  /-- RST_COUNT. -/
  count      : Nat := 0
  lkpKind    : BitVec 2 := 0
  lkpBlock   : Byte := 0
  /-- RST_BLKREC. -/
  blkCount   : Nat := 0
  blkFlr     : Bool := false
  blkBlock   : Byte := 0
  wdgEn      : Bool := false
  wdgBadwarn : Bool := false
  wdgLock    : Bool := false
  wdgPeriod  : Nat := 0
  wdgWarn    : Nat := 0
  wdgArmed   : Bool := false
  wdgFrames  : Nat := 0
  /-- WDGWARN was raised, or its point was passed by a write, in this watchdog period (R123). -/
  wdgWarned  : Bool := false
  /-- `now` at the release of group 1, from which internal requests can be outstanding (02 Table 2.12 REQAGE). -/
  startedAt  : Nat := 0
  /-- RST_BRINGUP.LAST: 2,096 lk with PGOOD already high (05 §5.4). -/
  bringup    : Nat := 2096
  /-- An executed SWR key waits for its DATAZ (R127). -/
  swrKey     : Bool := false
  /-- An accepted DBG_RESET waits for its DATAZ (R128). -/
  dbgHeld    : Bool := false
  deriving DecidableEq, Repr

/-! ### The clock (04) -/

/-- What the power controller waits for (04 R99, R103; 14 R377, R384). -/
inductive VPhase where
  /-- No transition. -/
  | idle
  /-- VSEL steps and the VMIN wait of a level transition toward the target level. -/
  | vmin (target : Fin 4)
  /-- PGOOD is watched for a level transition toward the target level. -/
  | watch (target : Fin 4)
  /-- The PGOOD wait of a start-up, a Block reset of PWR or PWRUNF (R103). -/
  | start
  deriving DecidableEq, Repr

/-- The trims of one port, written and in force (04 R84). -/
structure Trim where
  out    : BitVec 4 := 0
  rx     : BitVec 5 := 0
  outNow : BitVec 4 := 0
  rxNow  : BitVec 5 := 0
  deriving DecidableEq, Repr

/-- A Jexast strobe: its level, the lk of the present half-period that have passed, and the half-period it runs at, which
is taken from DIV at the end of each strobe period (04 R87, R88). -/
structure Strobe where
  high : Bool := true
  ran  : Nat := 0
  half : Nat := 2048
  deriving DecidableEq, Repr

structure Clk where
  /-- CLK_STAT.ARMED: the clock-loss detector (R95). -/
  armed      : Bool := true
  ctValid    : Bool := false
  vbusy      : Bool := false
  vphase     : VPhase := .idle
  /-- Level in force: 0 P0 to 3 P3 (R98). -/
  cur        : Fin 4 := 0
  /-- VSEL code being driven. -/
  vcode      : Fin 4 := 0
  /-- VSEL codes still to be driven, one per lk (R99). -/
  vsteps     : List (Fin 4) := []
  req        : Fin 4 := 0
  vto        : Nat := 32
  vmin       : Nat := 4
  /-- Cell time (R90). -/
  frame      : BitVec 16 := 0
  lk         : BitVec 15 := 0
  /-- Cell time counts: from the end of bring-up (R93). -/
  ctRun      : Bool := true
  /-- A valid FRAME_START of this frame was captured by lk 1,023 (R93). -/
  fsSeen     : Bool := false
  /-- The check of R93 for this frame is done. -/
  fsChecked  : Bool := false
  snapFrame  : BitVec 16 := 0
  snapLk     : BitVec 15 := 0
  tier       : Nat := 1
  tierNow    : Nat := 1
  adj        : Nat := 0
  adjNow     : Nat := 0
  slipCnt    : Nat := 0
  /-- Signed, saturating at ±32,767. -/
  slipDelta  : Int := 0
  fsMissCnt  : Nat := 0
  /-- PGLOST has been raised in the present run of low PGOOD reads (R102). -/
  pgLow      : Bool := false
  strobe     : Vector Strobe 2 := Vector.replicate 2 {}
  div        : Vector Nat 2 := Vector.replicate 2 4096
  divNow     : Vector Nat 2 := Vector.replicate 2 4096
  trim       : Vector Trim 8 := Vector.replicate 8 {}
  ud0        : BitVec 5 := 16
  ud1        : BitVec 5 := 16
  ud0Now     : BitVec 5 := 16
  ud1Now     : BitVec 5 := 16
  deriving DecidableEq, Repr

/-! ### Option bytes, system, debug and backup pages (05 §5.8–5.9, 02 §2.7–2.8) -/

/-- One OTP codeword: its data, how it decodes, and the data a cut-short program command was writing (R134–R137). -/
structure Codeword where
  data    : BitVec 64 := 0
  cond    : CwCond := .clean
  partialOf : Option (BitVec 64) := none
  deriving DecidableEq, Repr

/-- An OPT_PROG command in progress (R136). -/
inductive OpCmd where
  | program (cw : Fin 16) (data : BitVec 64) | verify (cw : Fin 16)
  deriving DecidableEq, Repr

structure Opt where
  otp      : Vector Codeword 16 := Vector.replicate 16 {}
  /-- SHADOW0–31: the image in force (Table 5.12). -/
  shadow   : Vector Word 32 := Vector.replicate 32 0
  loaded   : Bool := true
  corr     : Bool := false
  fallback : Bool := false
  fmtbad   : Bool := false
  olocked  : Bool := false
  cwUnc    : Half := 0
  cwCor    : Half := 0
  pdata0   : Word := 0
  pdata1   : Word := 0
  cmd      : Option OpCmd := none
  refused  : Bool := false
  result   : CwCond := .clean
  lastCw   : Fin 16 := 0
  vdata0   : Word := 0
  vdata1   : Word := 0
  deriving DecidableEq, Repr

structure Sys where
  uid     : BitVec 48 := 0
  uidBad  : Bool := false
  scratch : Word := 0
  deriving DecidableEq, Repr

/-- The DBG registers that are not read live from other blocks (02 Table 2.12). -/
structure Dbg where
  corr     : Nat := 0
  uncorr   : Nat := 0
  lastUnc  : Bool := false
  lastAddr : Half := 0
  lowest   : Nat := 512
  deriving DecidableEq, Repr

structure Bkp where
  bkp      : Vector Word 16 := Vector.replicate 16 0
  wp       : BitVec 4 := 0
  lock     : Bool := false
  errCount : Nat := 0
  errWord  : Byte := 0
  deriving DecidableEq, Repr

/-! ### The upstream port and the Junction (06, 07) -/

/-- Where the upstream port stands (06 §6.4–6.6). -/
inductive LinkPhase where
  /-- Unconnected; the connect drive may be on. -/
  | unconnected
  /-- A port reset has been sensed: the forced phase, before the chirp. -/
  | resetting
  /-- The hub's chirp has been sent and the answer is awaited. -/
  | chirped
  /-- The answer was accepted: width training at Full. -/
  | training
  /-- The width is fixed; the first start delimiter is awaited (R427). -/
  | trained
  /-- LINKUP is 1. -/
  | up
  deriving DecidableEq, Repr

/-- Junction phases (02 Table 2.12 PHASE). -/
inductive JPhase where
  | idle | request | turnaround | response | handshake
  deriving DecidableEq, Repr

/-- Target of a transaction (02 Table 2.12 PORT, 07 Table 7.4). -/
inductive Target where
  | port (n : Port) | xlt (n : Port) | portI | none
  deriving DecidableEq, Repr

/-- The Junction's transaction in progress (07 R174–R177, R191). -/
structure Txn where
  target : Target := .none
  phase  : JPhase := .idle
  /-- A SOUT or SIN, so measured against the reservation (R191). -/
  sched  : Bool := false
  /-- A bulk or control IN, whose DATA the host answers (Table 7.5). -/
  wantsAck : Bool := false
  /-- An EP1 poll of the hub function (14 Table 14.3). -/
  poll   : Bool := false
  /-- `now` at the first delimiter bit. -/
  start  : Nat := 0
  /-- ADDR and SEQ of the packet that started it, which the answer carries (R167). -/
  addr   : BitVec 7 := 0
  seq    : Bool := false
  /-- Its target received no good packet, so no response can come (06 R145, 07 R172). -/
  mute   : Bool := false
  deriving DecidableEq, Repr

structure Upl where
  phase     : LinkPhase := .unconnected
  connect   : Bool := true
  linkup    : Bool := false
  x2        : Bool := false
  x1Only    : Bool := false
  x1Now     : Bool := false
  suspended : Bool := false
  probing   : Bool := false
  /-- Samples of the probe that still read low, because the host drives the lane low (06 R150). -/
  probeLows : Nat := 0
  /-- A FRAME_START has been received since the last port reset, so the suspend count runs (06 R160). -/
  fsCounted : Bool := false
  /-- A port wake was accepted while the upstream port was suspended and remote wake was enabled (09 R237). -/
  wakeWanted : Bool := false
  /-- Lk of the hub's own remote wake on UD0 still to be driven (06 R162). -/
  wakeLk    : Nat := 0
  hcrcCnt   : Nat := 0
  dcrcCnt   : Nat := 0
  maskCnt   : Nat := 0
  dupCnt    : Nat := 0
  nrtCnt    : Nat := 0
  x2Cnt     : Nat := 0
  toCnt     : Nat := 0
  protoCnt  : Nat := 0
  txn       : Txn := {}
  deriving DecidableEq, Repr

/-- A response of the hub's own functions or of the translator: its type, ADDR, EP, SEQ, LEN and payload
(07 Table 7.1, Table 7.2). -/
inductive RespType where
  | ack | nrdy | stall | data | dataz | pready
  deriving DecidableEq, Repr

/-- The last thing the hub sent on a downstream lane (07 R174, R175; 10 R257, R261). -/
inductive Sent where
  /-- Delimiter and header bits [25:0], then the HCRC inverted and a tail. -/
  | masked (header : BitVec 32)
  /-- A packet of the host, repeated unchanged. -/
  | repeated (p : RawPkt)
  /-- A packet of the translator. -/
  | own (p : RawPkt)
  /-- The wake pattern (06 R165). -/
  | wake
  deriving DecidableEq, Repr

structure Answer where
  typ     : RespType
  addr    : BitVec 7
  ep      : BitVec 4
  seq     : Bool
  len     : BitVec 10
  payload : List Byte
  deriving DecidableEq, Repr

/-! ### The hub function and the bridge function (08) -/

/-- Stage of a control transfer (07 Table 7.9). -/
inductive Stage where
  | none | outData | inData | status | halted
  deriving DecidableEq, Repr

/-- What an accepted request does once the DATAZ of its status stage has been sent: SET_ADDR (08 R197), INST_RESET (08
R213). -/
inductive AtEnd where
  | addr (a : BitVec 7) | instReset (i : Inst)
  deriving DecidableEq, Repr

/-- A REG_READ that waits on an RS word (02 R48, 08 R207). -/
structure RegWait where
  value : Half
  index : Half
  length : Half
  deriving DecidableEq, Repr

structure Ep0 where
  stage     : Stage := .none
  /-- SEQ and bytes of the last SETUP (07 Table 7.9, second row). -/
  lastSetup : Option (Bool × Setup) := Option.none
  /-- A stage packet was accepted since the last SETUP. -/
  stageSeen : Bool := false
  setup     : Setup := ⟨0, 0, 0, 0, 0⟩
  /-- SEQ expected in the OUT data stage, or of the next IN data packet. -/
  seq       : Bool := true
  /-- OUT data received so far. -/
  got       : List Byte := []
  /-- IN data still to be sent, and whether it is ready. -/
  data      : List Byte := []
  ready     : Bool := false
  /-- DATA or DATAZ pending with its SEQ and bytes; none: nothing pending. -/
  pend      : Option (Bool × List Byte) := Option.none
  /-- The next packet addressed to the function may be the ACK of `pend` (R182). -/
  ackable   : Bool := false
  /-- The request executes, so the status stage answers NRDY (R180). -/
  busy      : Bool := false
  /-- What follows the DATAZ of the status stage. -/
  atEnd     : Option AtEnd := Option.none
  /-- A status IN has been received and its answer waits for the port feature to execute (08 R203). -/
  inWaits   : Bool := false
  /-- A refused or incomplete REG_WRITE is replayed: the data OUT is discarded, the status stage is a STALL (08 R209). -/
  replayBad : Bool := false
  /-- VALUE, INDEX and LENGTH of the REG_WRITE that has passed its check and waits for its data (08 Table 8.10). -/
  regOpen   : Option (Half × Half × Half) := Option.none
  /-- The REG_READ that waits on an RS word (02 R48, 08 R207). -/
  wait      : Option RegWait := Option.none
  /-- No transaction since a Core reset that kept the link (05 R108). -/
  fresh     : Bool := false
  deriving DecidableEq, Repr

/-- A bulk or scheduled endpoint of the bridge function (07 R181, R182): EP1 to EP12. -/
structure BEp where
  halted  : Bool := false
  /-- SEQ expected (OUT) or of the next DATA (IN). -/
  seq     : Bool := false
  /-- Pending DATA with its bytes (IN). -/
  pend    : Option (List Byte) := none
  ackable : Bool := false
  fresh   : Bool := false
  deriving DecidableEq, Repr

/-- RESULT of a write-tag entry (08 Table 8.13). -/
inductive TagResult where
  | empty | complete | refused | incomplete
  deriving DecidableEq, Repr

structure TagEntry where
  func   : Func := .hub
  tag    : Nat := 0
  index  : Half := 0
  len    : Nat := 4
  fixed  : Bool := false
  result : TagResult := .empty
  done   : Nat := 0
  deriving DecidableEq, Repr

structure Hub where
  /-- Hub function address in force (UPL_STAT.ADDR) and the old ones still answered (R197). -/
  addr      : BitVec 7 := 0
  addrOld   : List (BitVec 7) := []
  conf      : Bool := false
  remoteWake : Bool := false
  brPres    : Bool := false
  brConf    : Bool := false
  brAddr    : BitVec 7 := 0
  brAddrOld : List (BitVec 7) := []
  /-- A port I reset has been executed and its 64 lk run (R199). -/
  brResetWait : Bool := false
  ep1All    : Bool := false
  /-- The hub function's EP1 is halted (SET_HALT, R198). -/
  ep1Halted : Bool := false
  /-- SEQ of the next DATA of the hub function's EP1 (07 Table 7.8). -/
  ep1Seq    : Bool := false
  /-- EP1 has answered no poll since a Core reset that kept the link (05 R108). -/
  ep1Fresh  : Bool := false
  stallCnt  : Nat := 0
  replayCnt : Nat := 0
  badReason : BitVec 4 := 0
  badRequest : Byte := 0
  badRtype  : Byte := 0
  /-- HUB_TAG0–7, the newest first (R209). -/
  tags      : Vector TagEntry 8 := Vector.replicate 8 {}
  /-- Route nibbles of addresses 0 to 127 (R194). -/
  routes    : Vector (BitVec 4) 128 := (Vector.replicate 128 0xF#4).set 0 8#4
  deriving DecidableEq, Repr

structure Ttb where
  enf     : Bool := false
  /-- RES written and NOW in force for targets 0 to 7 and port I (8). -/
  res     : Vector Nat 9 := Vector.replicate 9 0
  now     : Vector Nat 9 := Vector.replicate 9 0
  /-- The written value stays out of the sum until written again (R192). -/
  out     : Vector Bool 9 := Vector.replicate 9 false
  /-- The target left Siding and its value returns at the next local lk 0 (R192). -/
  ret     : Vector Bool 9 := Vector.replicate 9 false
  /-- Used counts of this frame (R191) and the bulk and control lk of this frame. -/
  used    : Vector Nat 9 := Vector.replicate 9 0
  other   : Nat := 0
  lastSched : Nat := 0
  lastOther : Nat := 0
  ovrCnt  : Nat := 0
  cutCnt  : Nat := 0
  babCnt  : Nat := 0
  deriving DecidableEq, Repr

/-! ### Downstream ports (09) -/

/-- Port states with the codes of 09 Table 9.1 in order. -/
inductive PState where
  | off | pwg | dsc | rst | ena | sus | rsm | dsb | sid
  deriving DecidableEq, Repr

/-- What the hub drives on DDn in RESETTING and RESUMING (06 Table 6.5, 09 R235). -/
inductive PDrive where
  | none | forced | window | answer | errorLow | resume | quiet
  deriving DecidableEq, Repr

structure PortSt where
  state     : PState := .off
  /-- PRTn_CFG as written. -/
  power     : Bool := false
  speed     : BitVec 2 := 0
  settle    : BitVec 2 := 0
  misslim   : Nat := 4
  wakeen    : Bool := false
  /-- PRTn_NOW. -/
  powerNow  : Bool := false
  speedNow  : BitVec 2 := 0
  settleNow : BitVec 2 := 0
  full      : Bool := false
  attached  : Bool := false
  debounce  : Bool := false
  suspReq   : Bool := false
  selSusp   : Bool := false
  pwrPend   : Bool := false
  /-- `now` of the last fall of PWRENn since the last Core or wider reset (R223). -/
  fell      : Option Nat := Option.none
  /-- The fault blanking has ended (R225). -/
  watched   : Bool := false
  drive     : PDrive := .none
  /-- A RESUME is held until the suspend point (R234). -/
  held      : Bool := false
  /-- Frames (local lk 0) since the last FSTART sent; none: no FSTART since ENABLED (R233, R234). -/
  sinceFs   : Option Nat := Option.none
  /-- FSTART is withheld: from the local lk 0 after a SUSPEND (R232), and until the local lk 0 after a resume. -/
  noFs      : Bool := false
  misses    : Nat := 0
  cause     : BitVec 3 := 0
  rejState  : PState := .off
  rejCmd    : BitVec 4 := 0
  discCnt   : Nat := 0
  ovcCnt    : Nat := 0
  /-- PFLT_Nn has read low for the last 64 lk (15 Table 15.2). -/
  pflt      : Bool := false
  wakeCnt   : Nat := 0
  babCnt    : Nat := 0
  chgFrame  : BitVec 16 := 0
  chgLk     : BitVec 15 := 0
  deriving DecidableEq, Repr

/-! ### The translator (10) -/

inductive BankState where
  | free | opened | closed
  deriving DecidableEq, Repr

/-- A bank: its state and how many of its eight slots are written (10 R248). -/
structure Bank where
  state   : BankState := .free
  written : Nat := 0
  deriving DecidableEq, Repr

inductive ItemKind where
  | out | outz | setup | sout | inn | sin
  deriving DecidableEq, Repr

/-- An unfinished item of a translated port (10 R246). Its place in the port's list is its age. -/
structure Item where
  kind    : ItemKind
  ep      : BitVec 4
  /-- The chip's address (ADDR of the host's packet). -/
  addr    : BitVec 7
  seq     : Bool
  bytes   : List Byte
  bank    : Fin 2
  /-- LEN of the fetch (R247). -/
  len     : Nat := 63
  /-- A fetch that the chip has filled. -/
  stored  : Bool := false
  /-- The DATA of a stored IN item has been sent and is pending (R182). -/
  sent    : Bool := false
  retries : Nat := 0
  /-- Its transaction is on the Basic lane (R258). -/
  onLane  : Bool := false
  /-- A DROP named the item while its transaction was on the lane (R267). -/
  dropped : Bool := false
  deriving DecidableEq, Repr

structure XPort where
  /-- A grant was made and not lost (R250, R269). -/
  granted  : Bool := false
  ob       : Vector Bank 2 := Vector.replicate 2 {}
  ib       : Vector Bank 2 := Vector.replicate 2 {}
  /-- The bank opened most recently in each pair; none since the grant (R248). -/
  obLast   : Option (Fin 2) := none
  ibLast   : Option (Fin 2) := none
  items    : List Item := []
  /-- Groups in back-off (R258). -/
  backoff  : List Nat := []
  /-- Last stored SEQ of each OUT group (R254). -/
  lastSeq  : Vector (Option Bool) 16 := Vector.replicate 16 none
  /-- SEQ and bytes of the last stored SETUP with no EP0 packet stored since (R254). -/
  lastSetup : Option (Bool × List Byte) := none
  /-- SEQ expected of the chip in each IN group (R257). -/
  inExp    : Vector Bool 16 := Vector.replicate 16 false
  outHalt  : Half := 0
  inHalt   : Half := 0
  /-- The endpoint whose pending DATA the next packet to the chip may ACK (R254). -/
  ackable  : Option (BitVec 4) := none
  /-- An FSTART of this frame waits for the end of the quiet window (R261). -/
  fsWait   : Bool := false
  outDone  : Nat := 0
  inDone   : Nat := 0
  deriving DecidableEq, Repr

structure Xlt where
  backoff  : Nat := 4
  retryLim : Nat := 0
  prefetch : Byte := 0
  ports    : Vector XPort 8 := Vector.replicate 8 {}
  /-- Groups that lost a delivered item when an XLT Block reset emptied the banks: the halt marks set at lk 192
  (R272). Bits 0–15 OUT, 16–31 IN. -/
  lost     : Vector Word 8 := Vector.replicate 8 0
  ovcrCnt  : Nat := 0
  ovszCnt  : Nat := 0
  dropCnt  : Nat := 0
  noinCnt  : Nat := 0
  lostCnt  : Nat := 0
  inlenCnt : Nat := 0
  deriving DecidableEq, Repr

/-! ### The Jexast channels (11) -/

/-- JXx_STAT.BUS (11 Table 11.8), in code order. -/
inductive BusState where
  | stopped | recovery | idle | receiving | transmitting | errorSig
  deriving DecidableEq, Repr

/-- A census frame of the hub: CENSUS, or the CENSUS_MARK of a UID (11 R300). -/
inductive CenFrame where
  | census | mark (uid : BitVec 48)
  deriving DecidableEq, Repr

/-- The frame that the hub has on the wire: a TX buffer (instance, buffer number) or its census frame. -/
inductive Wire where
  | none | buf (i : Inst) (b : Fin 3) | census
  deriving DecidableEq, Repr

structure CenEntry where
  uid  : BitVec 48
  info : Half
  deriving DecidableEq, Repr

structure Jx where
  bus        : BusState := .stopped
  wire       : Wire := .none
  tec        : Nat := 0
  recv       : Nat := 0
  busOff     : Bool := false
  /-- Bus-off recovery counts runs (R293). -/
  counting   : Bool := false
  runs       : Nat := 0
  /-- Consecutive recessive samples of the run in progress (R293). -/
  recs       : Nat := 0
  cenRetry   : Nat := 3
  cenAuto    : Bool := false
  autoRcv    : Bool := false
  listen     : Bool := false
  listenNow  : Bool := false
  /-- No line recovery has ended since the last bring-up (R301). -/
  firstRcv   : Bool := true
  /-- The hub was the transmitter of the frame whose intermission has not ended (R279, R289). -/
  wasTx      : Bool := false
  /-- Idle bits that an error-passive hub still waits before it starts a frame (R279). -/
  waitBits   : Nat := 0
  /-- `now` of the rising strobe edge that samples the start-of-frame bit of the frame on the wire, and the cell time of that
  lk once it has come (04 R94). -/
  sofAt      : Nat := 0
  stamp      : Option (BitVec 31) := Option.none
  /-- ID of the frame that the hub receives, and that it has neither discarded it nor handed it over. -/
  rxId       : BitVec 24 := 0
  rxOpen     : Bool := false
  /-- Line recovery is due but the channel is held by the entry handshake (14 R369). -/
  rcvWait    : Bool := false
  /-- The late error of an accepted frame has been recorded, and the acceptance with it (R284). -/
  lateAcc    : Bool := false
  stuffCnt   : Nat := 0
  bitCnt     : Nat := 0
  formCnt    : Nat := 0
  crcCnt     : Nat := 0
  arbLost    : Nat := 0
  ackCnt     : Nat := 0
  txOk       : Nat := 0
  rxOk       : Nat := 0
  errKind    : BitVec 3 := 0
  errRole    : Bool := false
  errField   : BitVec 4 := 0
  errBit     : BitVec 10 := 0
  boCnt      : Nat := 0
  rcvResult  : BitVec 2 := 0
  rcvStrobes : Nat := 0
  cenRun     : Bool := false
  cnum       : Byte := 0
  cenTable   : List CenEntry := []
  cenDone    : Bool := false
  cenIncomplete : Bool := false
  cenOvf     : Bool := false
  cenAbort   : Bool := false
  cenTries   : Nat := 0
  /-- The last census frame, to be sent again when a round is repeated (R300). -/
  cenLast    : CenFrame := .census
  /-- A census frame waits to be sent (R288). -/
  cenPend    : Bool := false
  /-- The last census frame has been sent and its response bit is looked at (R300). -/
  cenLook    : Bool := false
  cenSel     : Fin 32 := 0
  helloUid   : BitVec 48 := 0
  helloInfo  : Half := 0
  flmCnt     : Nat := 0
  flmWord    : BitVec 9 := 0
  deriving DecidableEq, Repr

/-! ### The Message Bridge (12, 13) -/

/-- TX buffer states with the codes of 12 Table 12.2 in order. -/
inductive BufState where
  | free | full | wire | done | orphan
  deriving DecidableEq, Repr

/-- STATUS of a completion record, codes 1 to 4 (12 Table 12.6). -/
inductive TxStatus where
  | sent | cancelled | errlimit | damaged
  deriving DecidableEq, Repr

structure TxBuf where
  state   : BufState := .free
  canreq  : Bool := false
  id      : BitVec 24 := 0
  data    : List Byte := []
  ctag    : Byte := 0
  att     : Nat := 0
  errs    : Nat := 0
  /-- Order in which the buffer first became FULL (R313). -/
  fullAt  : Nat := 0
  /-- Final status of the buffer, or of this copy of a Mirror pair. -/
  status  : Option TxStatus := none
  /-- Order in which the final status was reached (R316). -/
  doneAt  : Nat := 0
  deriving DecidableEq, Repr

/-- A completion record (12 Table 12.6). -/
structure CRec where
  status : TxStatus
  byrst  : Bool
  buf    : Fin 3
  chan   : Chan
  ctag   : Byte
  att    : Nat
  sentA  : Bool
  sentB  : Bool
  deriving DecidableEq, Repr

/-- A staged TX record (12 Table 12.3); buffer 3 is "any". -/
structure TxRec where
  id    : BitVec 24
  data  : List Byte
  chan  : Chan
  buf   : BitVec 2
  ctag  : Byte
  deriving DecidableEq, Repr

/-- States of a held RX entry (13 Table 13.3); `alloc` is allocated and not yet visible (R332). SELECTED is split by
the path that holds the entry: the window's request, the window's current entry, a bulk DATA or an urgent DATA. -/
inductive RxState where
  | alloc | queued | current | bulk | urgent | read
  deriving DecidableEq, Repr

/-- A held RX entry (13 Table 13.2). -/
structure RxEntry where
  state  : RxState := .alloc
  chan   : Chan := 0
  urg    : Bool := false
  dupl   : Bool := false
  mirr   : Bool := false
  loss   : Bool := false
  aged   : Bool := false
  late   : Bool := false
  id     : BitVec 24 := 0
  frame  : BitVec 16 := 0
  lk     : BitVec 15 := 0
  seq    : Half := 0
  fidx   : Byte := 0
  isDef  : Bool := false
  data   : List Byte := []
  /-- Delivery number; 0 until the entry is first selected. -/
  dnum   : Half := 0
  numbered : Bool := false
  eprio  : BitVec 3 := 0
  bank   : Fin 2 := 0
  rsnt   : Bool := false
  age    : Nat := 0
  /-- Arrival order: unique within an instance (R344). -/
  arr    : Nat := 0
  /-- Order of ageing. -/
  agedAt : Nat := 0
  deriving DecidableEq, Repr

structure Mvf where
  /-- TX buffers A0–A2 and B0–B2 (buffer k = 3 × CH + BUF). -/
  bufs     : Vector TxBuf 6 := Vector.replicate 6 {}
  hdrId    : BitVec 24 := 0
  hdrLen   : BitVec 7 := 0
  txData   : Vector Word 16 := Vector.replicate 16 0
  staging  : List TxRec := []
  cq       : List CRec := []
  /-- CANCELLED, BYRST records that the wrapper holds until lk 255 (R323, R324). -/
  held     : List CRec := []
  errlim   : Nat := 0
  ordA     : Bool := false
  ordB     : Bool := false
  nxt      : Vector (Fin 3) 2 := Vector.replicate 2 0
  fill     : Vector (Fin 3) 2 := Vector.replicate 2 0
  flushed  : Nat := 0
  rejTag   : Byte := 0
  rejSrc   : Bool := false
  rejReason : BitVec 4 := 0
  sentCnt  : Nat := 0
  rejCnt   : Nat := 0
  /-- Held entries in the order of their allocation. -/
  rx       : List RxEntry := []
  nextDnum : Half := 1
  lossLatch : Bool := true
  waitLim  : Nat := 0
  ageLim   : Nat := 16
  bankSize : Nat := 0
  cmode    : Bool := false
  qorg     : Bool := false
  dbank    : Fin 2 := 0
  /-- Frames dropped for the instance since its Block reset began (12 Table 12.7). -/
  rxDrop   : Nat := 0
  /-- What lk 0 of the instance's own Block reset in progress did, for RSTREC: RX entries returned, staged records discarded,
  records cancelled (12 R323). -/
  rstRx    : Nat := 0
  rstStaged : Nat := 0
  rstCanc  : Nat := 0
  deriving DecidableEq, Repr

/-- RSTRECA and RSTRECB (12 Table 12.9). -/
structure WireRec where
  valid : Bool := false
  sent  : Bool := false
  inst  : Fin 4 := 0
  buf   : Fin 3 := 0
  id    : BitVec 24 := 0
  deriving DecidableEq, Repr

/-- The suppressor copy of a channel (13 R359). -/
structure DupCopy where
  id   : BitVec 24
  data : List Byte
  crc  : BitVec 21
  /-- `now` at its hand-over. -/
  at_  : Nat
  /-- Its window is open: no repeat has been found yet. -/
  live : Bool
  deriving DecidableEq, Repr

/-- A mirror record (13 R360). -/
structure MirRec where
  id  : BitVec 24
  len : Nat
  crc : BitVec 21
  at_ : Nat
  used : Bool
  deriving DecidableEq, Repr

structure Mbr where
  mirror   : Bool := false
  mirNow   : Bool := false
  /-- RSTREC0 and RSTREC1. -/
  rrRxret  : Nat := 0
  rrCanc   : Nat := 0
  rrBlock  : Byte := 0
  rrRxdrop : Nat := 0
  rrStaged : Nat := 0
  wireRec  : Vector WireRec 2 := Vector.replicate 2 {}
  mirdrop  : Nat := 0
  rstCnt   : Nat := 0
  /-- The same of an MBR Block reset in progress, for all instances, and the frames dropped during it (12 R327). -/
  rstRx    : Nat := 0
  rstStaged : Nat := 0
  rstCanc  : Nat := 0
  rstDrop  : Nat := 0
  mirAct   : Bool := false
  defAct   : Vector (BitVec 11) 2 := Vector.replicate 2 0
  qMin     : Vector Nat 4 := Vector.replicate 4 0
  qMax     : Vector Nat 4 := Vector.replicate 4 128
  wmHi     : Vector Nat 2 := Vector.replicate 2 0
  wmLo     : Vector Nat 2 := Vector.replicate 2 0
  lost     : Vector Nat 4 := Vector.replicate 4 0
  dupCnt   : Vector Nat 4 := Vector.replicate 4 0
  seq      : Vector Half 2 := Vector.replicate 2 0
  rej      : Vector Nat 2 := Vector.replicate 2 0
  flowCnt  : Vector Nat 2 := Vector.replicate 2 0
  /-- FLOW_x_N asserted by R362. -/
  flow     : Vector Bool 2 := Vector.replicate 2 false
  dup      : Vector (Option DupCopy) 2 := Vector.replicate 2 none
  mir      : Vector (List MirRec) 2 := Vector.replicate 2 []
  deriving DecidableEq, Repr

/-! ### Power (14) -/

/-- The low-power states with the codes of PWR_REQ.STATE 1 to 3 in order. -/
inductive LowState where
  | park | retain | heron
  deriving DecidableEq, Repr

/-- PWR_STAT.PHASE 1 to 3 (14 Table 14.8); no round: `none`. -/
inductive RoundPhase where
  | none | voting | agreed | preadySent
  deriving DecidableEq, Repr

/-- The way back from a stop or an aborted Retain or Heron entry (14 R383, R373). -/
inductive ExitPhase where
  /-- No exit. -/
  | none
  /-- Park: the clock has returned, service follows by lk 64. -/
  | parkReturn
  /-- Retain or Heron: the clock has returned and its first lk are awaited (a burst, or the wake pattern). -/
  | returned
  /-- X1 to X3: VSEL is driven to CUR's code and PGOOD is awaited. -/
  | pgood
  /-- As `pgood`, in an abort under R373. -/
  | abort
  deriving DecidableEq, Repr

structure Pwr where
  /-- UCLK runs. -/
  clockOn   : Bool := true
  /-- The core clock is gated (R377). -/
  gated     : Bool := false
  /-- The state entered by the last completed stop, until service resumes. -/
  low       : Option LowState := Option.none
  exit      : ExitPhase := .none
  round     : RoundPhase := .none
  /-- Next step of the entry to Retain or Heron, lk E + 1 to E + 3 onward; 0: none (R377). -/
  entry     : Nat := 0
  rstate    : LowState := .park
  /-- A PWR_REQ word executed inside a REG_WRITE waits for the DATAZ of its status stage (R370). -/
  reqHeld   : Option LowState := Option.none
  /-- Participants that have consented (Table 14.2 bit). -/
  consented : BitVec 21 := 0
  /-- `now` at round lk 0. -/
  roundAt   : Nat := 0
  /-- The round agreed to in this frame, or service resumed in it: no FSMISS (R375). -/
  noMiss    : Bool := false
  idleLimit : Nat := 0
  idleCnt   : Nat := 0
  entries   : Nat := 0
  refused   : Nat := 0
  refState  : BitVec 2 := 0
  refReason : BitVec 4 := 0
  refBlock  : Byte := 0
  deriving DecidableEq, Repr

/-- The AON part of PWR: wake records, wake latch and Heron sampler (05 Table 5.2, 14). -/
structure Aon where
  wkFrom    : BitVec 2 := 0
  wkLatepg  : Bool := false
  wkReplay  : Bool := false
  wkSrc     : BitVec 5 := 0
  wkSet     : BitVec 22 := 0
  wkFrame   : BitVec 16 := 0
  wkLk      : BitVec 15 := 0
  /-- WAKEEN as a mask by source code; bits 1, 20 and 21 read 1 (Table 14.9). -/
  wakeEn    : BitVec 22 := 0x300002
  armed     : Bool := false
  latched   : BitVec 22 := 0
  first     : BitVec 5 := 0
  /-- The first source was latched before the stop (R382). -/
  early     : Bool := false
  hrnMask   : BitVec 18 := 0
  hrnExp    : BitVec 18 := 0x3FF00
  confirm   : Nat := 1
  sample    : BitVec 18 := 0
  diff      : BitVec 18 := 0
  bursts    : Nat := 0
  short     : Nat := 0
  miss      : Nat := 0
  /-- A sample was committed in the return in progress. -/
  committed : Bool := false
  deriving DecidableEq, Repr

/-! ### The Signal box (15) -/

structure Flt where
  src     : BitVec 21 := 0
  lsev    : Vector (BitVec 2) 21 := Vector.replicate 21 0
  mode    : BitVec 21 := 0
  lock    : Bool := false
  pinsev  : BitVec 2 := 2
  lastFrame : BitVec 16 := 0
  lastLk  : BitVec 15 := 0
  lvalid  : Bool := false
  lsrc    : BitVec 5 := 0
  lsevl   : BitVec 2 := 0
  fvalid  : Bool := false
  fsrc    : BitVec 5 := 0
  lblock  : Byte := 0
  fences  : Nat := 0
  react   : Nat := 0
  deriving DecidableEq, Repr

/-! ### The whole machine -/

/-- A filter word as it was before a write: the engine examines each entry in its own lk (13 R337). -/
structure FlmOld where
  at_  : Nat
  addr : Nat
  val  : Word
  bad  : Bool
  deriving DecidableEq, Repr

structure State where
  /-- Page headers, by `Blk.idx`. -/
  hdrs    : Vector Hdr 28
  pins    : Pins
  rst     : Rst
  clk     : Clk
  opt     : Opt
  sys     : Sys
  dbg     : Dbg
  bkp     : Bkp
  upl     : Upl
  hub     : Hub
  /-- EP0 of the hub function (0) and of the bridge function (1). -/
  ep0     : Vector Ep0 2
  /-- Bridge endpoints EP1 to EP12, at index EP − 1. -/
  beps    : Vector BEp 12
  ttb     : Ttb
  ports   : Vector PortSt 8
  /-- `now` of the last PWRENn rise of any port (09 R222). -/
  lastRise : Option Nat
  xlt     : Xlt
  jx      : Vector Jx 2
  mbr     : Mbr
  mvf     : Vector Mvf 4
  pwr     : Pwr
  aon     : Aon
  flt     : Flt
  /-- Filter memory (0x3000–0x3FFF) and retained memory (0x4000–0x43FF): listed cells, strictly rising addresses, no
  cell equal to 0, which an unlisted address reads as. -/
  mem     : List Host.Cell
  /-- Word addresses of these memories whose parity bit fails (05 R132, 13 R339). -/
  parBad  : List Nat
  /-- Filter words overwritten lately: `now` of the write, address, old data, and whether its parity failed (13 R337). -/
  flmOld  : List FlmOld
  /-- The model's own: lk counted (log 1). -/
  now     : Nat
  /-- The model's own: counter of the free values (log 4). -/
  free    : Nat
  /-- The model's own: order counter. -/
  stamp   : Nat
  /-- The model's own: the last packet that the hub's functions or translator sent upstream; none: no response. -/
  answer  : Option Answer
  /-- The response of the routed port that the Junction repeated upstream in this transaction (07 R177). -/
  repUp   : Option RawPkt
  /-- What the hub sent last on each DDn; none: nothing since the last packet from upstream. -/
  sent    : Vector (Option Sent) 8
  /-- The queue of waiting commands, first in, first out. -/
  pending : List Instr
  deriving DecidableEq, Repr

/-- No command of the hub ends in a fault: every row of the table has an effect. -/
inductive Fault where
  /-- Never raised; kept so that a reader sees the type is closed. Safe. -/
  | unused
  deriving DecidableEq, Repr

/-- Why the model stops without a meaning. -/
inductive Refusal where
  /-- A command whose arm has no meaning yet, by its mnemonic. Raised only by Dispatch. Safe. -/
  | notModelled (mnemonic : String)
  deriving DecidableEq, Repr

/-- Default severities of 15 Table 15.2, the reset values of SEV.LEVEL; pages without a source bit hold 0. -/
def sevReset : Blk → BitVec 2
  | .prt _ => 2 | .xlt => 2 | .jx _ => 2 | .mbr => 2 | .mvf _ => 2 | .upl => 1 | .clk => 3 | .pwr => 2
  | .opt => 2 | .bkp => 2
  | .sys => 0 | .pin => 0 | .rst => 0 | .flt => 0 | .hub => 0 | .ttb => 0 | .dbg => 0

/-- The header of a page of class "none" or "reset" after reset (02 Tables 2.4–2.9). -/
def hdrFixed (b : Blk) : Hdr := { sev := sevReset b }

/-- The header of a page of class "full", whose EN has an "opt" value. -/
def hdrEn (b : Blk) (en : Bool) : Hdr := { sev := sevReset b, en := en }

/-- All headers after a bring-up with a blank option image: ports, channels, bridge and instances disabled, the
translator enabled (05 R134, Table 5.8). -/
def hdrsReset : Vector Hdr 28 :=
  #v[hdrFixed .sys, hdrFixed .pin, hdrFixed .clk, hdrFixed .rst, hdrFixed .opt, hdrFixed .bkp, hdrFixed .pwr, hdrFixed .flt,
     hdrFixed .upl, hdrFixed .hub, hdrFixed .ttb,
     hdrEn (.prt 0) false, hdrEn (.prt 1) false, hdrEn (.prt 2) false, hdrEn (.prt 3) false,
     hdrEn (.prt 4) false, hdrEn (.prt 5) false, hdrEn (.prt 6) false, hdrEn (.prt 7) false,
     hdrEn .xlt true, hdrEn (.jx 0) false, hdrEn (.jx 1) false, hdrEn .mbr false,
     hdrEn (.mvf 0) false, hdrEn (.mvf 1) false, hdrEn (.mvf 2) false, hdrEn (.mvf 3) false,
     hdrFixed .dbg]

/-- The hub right after reset: a completed bring-up of a Whole reset by POR of a part with blank fuses and blank option
bytes, PGOOD already high (05 §5.4; log 3). -/
def State.reset : State where
  hdrs := hdrsReset
  pins := {}
  rst := {}
  clk := {}
  opt := {}
  sys := {}
  dbg := {}
  bkp := {}
  upl := {}
  hub := {}
  ep0 := Vector.replicate 2 {}
  beps := Vector.replicate 12 {}
  ttb := {}
  ports := Vector.replicate 8 {}
  lastRise := none
  xlt := {}
  jx := Vector.replicate 2 {}
  mbr := {}
  mvf := Vector.replicate 4 {}
  pwr := {}
  aon := {}
  flt := {}
  mem := []
  parBad := []
  flmOld := []
  now := 0
  free := 0
  stamp := 0
  answer := none
  repUp := none
  sent := Vector.replicate 8 none
  pending := []

end Sys2Proof.Machine
end

