-- ==== Sys2Proof/Machine/Ops.lean ====
section
/-! DEFINITION. The named operations that every family shares: access to the indexed state, edge events and errors of a
page header (02 R40–R42), cell time, free values, the memories, and the order counter. -/

namespace Sys2Proof.Machine

/-- The outcome of a command. -/
abbrev Out := Host.Outcome State Fault Refusal

/-! ### Indexed state -/

def State.hdr (s : State) (b : Blk) : Hdr := s.hdrs[b.idx]
def State.setHdr (s : State) (b : Blk) (h : Hdr) : State := { s with hdrs := s.hdrs.set b.idx.val h b.idx.isLt }
def State.modHdr (s : State) (b : Blk) (f : Hdr → Hdr) : State := s.setHdr b (f (s.hdr b))

def State.port (s : State) (n : Port) : PortSt := s.ports[n]
def State.setPort (s : State) (n : Port) (p : PortSt) : State := { s with ports := s.ports.set n.val p n.isLt }
def State.modPort (s : State) (n : Port) (f : PortSt → PortSt) : State := s.setPort n (f (s.port n))

def State.xport (s : State) (n : Port) : XPort := s.xlt.ports[n]
def State.setXport (s : State) (n : Port) (p : XPort) : State :=
  { s with xlt := { s.xlt with ports := s.xlt.ports.set n.val p n.isLt } }
def State.modXport (s : State) (n : Port) (f : XPort → XPort) : State := s.setXport n (f (s.xport n))

def State.chan (s : State) (c : Chan) : Jx := s.jx[c]
def State.setChan (s : State) (c : Chan) (j : Jx) : State := { s with jx := s.jx.set c.val j c.isLt }
def State.modChan (s : State) (c : Chan) (f : Jx → Jx) : State := s.setChan c (f (s.chan c))

def State.inst (s : State) (i : Inst) : Mvf := s.mvf[i]
def State.setInst (s : State) (i : Inst) (m : Mvf) : State := { s with mvf := s.mvf.set i.val m i.isLt }
def State.modInst (s : State) (i : Inst) (f : Mvf → Mvf) : State := s.setInst i (f (s.inst i))

/-- Index of a function's EP0. -/
def fIdx : Func → Fin 2
  | .hub => 0 | .bridge => 1

def State.ep (s : State) (f : Func) : Ep0 := s.ep0[fIdx f]
def State.setEp (s : State) (f : Func) (e : Ep0) : State :=
  { s with ep0 := s.ep0.set (fIdx f).val e (fIdx f).isLt }
def State.modEp (s : State) (f : Func) (g : Ep0 → Ep0) : State := s.setEp f (g (s.ep f))

/-- Bridge endpoint with index 0 to 11 (EP1 to EP12). -/
def State.bep (s : State) (k : Fin 12) : BEp := s.beps[k]
def State.setBep (s : State) (k : Fin 12) (e : BEp) : State := { s with beps := s.beps.set k.val e k.isLt }
def State.modBep (s : State) (k : Fin 12) (f : BEp → BEp) : State := s.setBep k (f (s.bep k))

/-- Apply an update to each of the eight ports. -/
def allPorts : List Port := [0, 1, 2, 3, 4, 5, 6, 7]
def allInsts : List Inst := [0, 1, 2, 3]
def allChans : List Chan := [0, 1]

/-! ### Events and errors (02 R40–R42) -/

/-- An edge event: sets EVT_PND when EVT_EN enables it (R41). -/
def evt (s : State) (b : Blk) (i : Nat) : State :=
  s.modHdr b fun h => { h with
    evtPnd := h.evtPnd ||| (h.evtEn &&& oneBit i), evtNew := h.evtNew ||| (h.evtEn &&& oneBit i) }

/-- An error: its ERR bit sets whatever the state of EVT_EN (02 Table 2.7). -/
def raise (s : State) (b : Blk) (i : Nat) : State :=
  s.modHdr b fun h => { h with err := h.err ||| oneBit i, errNew := h.errNew ||| oneBit i }

/-- The next lk begins: a clear in it meets no event of the lk before (00 R14), and the error lines follow (15 R389). -/
def newLk (s : State) : State :=
  { s with hdrs := s.hdrs.map fun h => { h with evtNew := 0, errNew := 0, errLine := h.err } }

/-- What a write of 1s leaves of W1C bits, `new` among them being of this very lk (00 R14). -/
def w1c (old new w : Word) : Word := old &&& ~~~(w &&& ~~~new)

/-- The page number of a block, which is its block code (02 R35, Table 2.1). -/
def blkPage : Blk → Nat
  | .sys => 0x00 | .pin => 0x01 | .clk => 0x02 | .rst => 0x03 | .opt => 0x04 | .bkp => 0x05 | .pwr => 0x06
  | .flt => 0x07 | .upl => 0x08 | .hub => 0x09 | .ttb => 0x0A
  | .prt n => 0x10 + n.val | .xlt => 0x18 | .jx c => 0x20 + c.val | .mbr => 0x22 | .mvf i => 0x24 + i.val
  | .dbg => 0x7F

/-! ### Effective Siding and service (02 R39, 12 R330) -/

/-- STAT.SIDING: on an MVF page the instance's own fence or that of the bridge (12 R330). -/
def siding (s : State) (b : Blk) : Bool :=
  match b with
  | .mvf _ => (s.hdr b).siding || (s.hdr .mbr).siding
  | .sys | .pin | .clk | .rst | .opt | .bkp | .pwr | .flt | .upl | .hub | .ttb | .prt _ | .xlt | .jx _ | .mbr
  | .dbg => (s.hdr b).siding

/-- STAT.ACTIVE: EN = 1, INRST = 0 and SIDING = 0 (02 Table 2.5). -/
def active (s : State) (b : Blk) : Bool := (s.hdr b).en && !(s.hdr b).inrst && !siding s b

/-- The core runs: bring-up is complete, UCLK runs and the core clock is not gated. -/
def coreRuns (s : State) : Bool := s.rst.phase == .run && s.pwr.clockOn && !s.pwr.gated

/-- The upstream port can answer a packet: its group has been released and the core is clocked (05 R117). After a Core
reset that kept the link it answers none before bring-up has ended (05 R109). -/
def inService (s : State) : Bool :=
  ((s.rst.phase == .run) || (s.rst.phase == .b4 && decide (2 ≤ s.rst.group) && !s.rst.keepLink)) && s.pwr.clockOn &&
    !s.pwr.gated

/-! ### Free values, time and order -/

/-- Draw one free value: the counter the constants of Config are applied to, advanced (log 4). -/
def nextFree (s : State) : State := { s with free := s.free + 1 }

/-- Take the next order number. -/
def nextStamp (s : State) : State := { s with stamp := s.stamp + 1 }

/-- `n` corrected SECDED errors of the SRAM (02 Table 2.12). -/
def sramCorr (s : State) (n : Nat) : State := { s with dbg := { s.dbg with corr := satAdd 0xFFFF s.dbg.corr n } }

/-- An uncorrectable SECDED error of the SRAM: the DBG counters; the spec lays the SRAM out in no way, so LASTADDR is a
free value (02 Table 2.12; log 4). -/
def sramUnc (s : State) : State :=
  nextFree { s with dbg := { s.dbg with
    uncorr := satInc 0xFFFF s.dbg.uncorr, lastUnc := true, lastAddr := (Config.freeWord s.free).setWidth 16 } }

/-- E of 04 R91 with the values in force. -/
def captureOffset (s : State) : Nat := 8 * (s.clk.tierNow - 1) + s.clk.adjNow

/-- The local lk offset as a number. -/
def lkNow (s : State) : Nat := s.clk.lk.toNat

/-! ### The memories (05 R131, 13 R335) -/

/-- What an address reads as when no cell lists it: both memories are zeroed (05 Table 5.5, Table 5.2). -/
def memDefault : Byte := 0

/-- Read one byte. -/
def memGet : List Host.Cell → Nat → Byte
  | [], _ => memDefault
  | (a, v) :: r, x => if x = a then v else if x < a then memDefault else memGet r x

/-- Write one byte, keeping addresses strictly rising and listing no byte equal to the default. -/
def memSet : List Host.Cell → Nat → Byte → List Host.Cell
  | [], x, v => if v = memDefault then [] else [(x, v)]
  | (a, w) :: r, x, v =>
    if x < a then (if v = memDefault then (a, w) :: r else (x, v) :: (a, w) :: r)
    else if x = a then (if v = memDefault then r else (x, v) :: r)
    else (a, w) :: memSet r x v

/-- Addresses strictly rise from a lower bound. -/
def memRising : Nat → List Host.Cell → Bool
  | _, [] => true
  | lo, (a, v) :: r => decide (lo ≤ a) && decide (v ≠ memDefault) && memRising (a + 1) r

/-- The canonical form of the memory list. -/
def Memory.wf (m : List Host.Cell) : Bool := memRising 0 m

/-- Read a 32-bit word: the byte at the word's address is bits [7:0]. -/
def memWord (m : List Host.Cell) (a : Nat) : Word :=
  wordOf (memGet m a) (memGet m (a + 1)) (memGet m (a + 2)) (memGet m (a + 3))

/-- Write a 32-bit word. -/
def memSetWord (m : List Host.Cell) (a : Nat) (w : Word) : List Host.Cell :=
  memSet (memSet (memSet (memSet m a (byteOf w 0)) (a + 1) (byteOf w 1)) (a + 2) (byteOf w 2)) (a + 3) (byteOf w 3)

/-- The longest time from a start-of-frame bit to the end of the frame's evaluation, rounded up: 649 bits of 4,096 lk
(11 Table 11.2, 13 R337). -/
def frameSpan : Nat := 4194304

/-- A filter word is about to change: what it held stays known as long as a frame on the wire can need it (13 R337). -/
def noteFlm (s : State) (a : Nat) : State :=
  if 0x3000 ≤ a ∧ a < 0x4000 then
    { s with flmOld := (s.flmOld.filter fun o => decide (s.now ≤ o.at_ + frameSpan)) ++
        [⟨s.now, a, memWord s.mem a, s.parBad.contains a⟩] }
  else s

/-- A write of a memory word stores it with correct parity (05 R132, 13 R339). -/
def memStore (s0 : State) (a : Nat) (w : Word) : State :=
  let s := noteFlm s0 a
  { s with mem := memSetWord s.mem a w, parBad := s.parBad.filter (· ≠ a) }

/-- Keep only the cells from `lo` up to `hi` (exclusive) removed: zero that range. -/
def memZero (m : List Host.Cell) (lo hi : Nat) : List Host.Cell :=
  m.filter fun c => decide (c.1 < lo) || decide (hi ≤ c.1)

end Sys2Proof.Machine
end

