-- ==== Sys2Proof/Machine/Rounds.lean ====
section
/-! DEFINITION. The sources and severities of the Signal box (15 §15.1, §15.2), and the entry handshake's round:
participants, busy conditions, votes, refusal and abort, and what a consent holds (14 §14.2, §14.3; 12 R319). -/

namespace Sys2Proof.Machine

/-! ### Buffers (12 Table 12.1, Table 12.2) -/

/-- Buffer k = 3 × CH + BUF. -/
def bufIx (c : Chan) (b : Fin 3) : Fin 6 := ⟨3 * c.val + b.val, by omega⟩

def Mvf.buf (m : Mvf) (k : Fin 6) : TxBuf := m.bufs[k]
def Mvf.setBuf (m : Mvf) (k : Fin 6) (b : TxBuf) : Mvf := { m with bufs := m.bufs.set k.val b k.isLt }
def Mvf.modBuf (m : Mvf) (k : Fin 6) (f : TxBuf → TxBuf) : Mvf := m.setBuf k (f (m.buf k))

def allBufs : List (Fin 3) := [0, 1, 2]
def allSix : List (Fin 6) := [0, 1, 2, 3, 4, 5]

/-- Channel and number of buffer `k`. -/
def bufChan (k : Fin 6) : Chan := if k.val < 3 then 0 else 1
def bufNum (k : Fin 6) : Fin 3 := ⟨k.val % 3, by omega⟩

/-- The other channel. -/
def otherChan (c : Chan) : Chan := if c = 0 then 1 else 0

/-- The number after `b`, mod 3. -/
def next3 (b : Fin 3) : Fin 3 := if b = 0 then 1 else if b = 1 then 2 else 0

/-- The buffer of the same number on the other channel. -/
def sibling (k : Fin 6) : Fin 6 := bufIx (otherChan (bufChan k)) (bufNum k)

/-! ### Service of an instance and the move of a staged record (12 R311, R312) -/

/-- The bridge gives service: MBR enabled, not fenced, not in reset. -/
def mbrOn (s : State) : Bool := active s .mbr

/-- An instance whose FULL buffers are candidates (R312). -/
def instOn (s : State) (i : Inst) : Bool := active s (.mvf i) && mbrOn s

/-- Buffer-number order for an instance's buffers of a channel (R311, R321). -/
def ringOrder (s : State) (i : Inst) (c : Chan) : Bool :=
  if s.mbr.mirNow then (s.inst i).ordA else if c = 0 then (s.inst i).ordA else (s.inst i).ordB

/-- The buffer can be filled: it is FREE, in Mirror mode on both channels. -/
def bufFree (s : State) (i : Inst) (k : Fin 6) : Bool :=
  ((s.inst i).buf k).state = .free && (!s.mbr.mirNow || ((s.inst i).buf (sibling k)).state = .free)

/-- Buffer number 0 to 2 of a two-bit BUF; 3 names none. -/
def bufOf (b : BitVec 2) : Option (Fin 3) :=
  if b = 0 then some 0 else if b = 1 then some 1 else if b = 2 then some 2 else none

/-- The buffer that the head record takes (R311). -/
def stagedTarget (s : State) (i : Inst) (r : TxRec) : Option (Fin 6) :=
  let c : Chan := if s.mbr.mirNow then 0 else r.chan
  let f := (s.inst i).fill[c]
  let order := if ringOrder s i c then [f, next3 f, next3 (next3 f)] else allBufs
  match bufOf r.buf with
  | some b => if bufFree s i (bufIx c b) then some (bufIx c b) else none
  | none => (order.map (bufIx c)).find? (bufFree s i)

/-- A record is on its way from staging into a buffer (12 R331): the head record of an instance in service has a buffer to
take. -/
def recordMoves (s : State) (i : Inst) : Bool :=
  instOn s i && match (s.inst i).staging with
    | [] => false
    | r :: _ => (stagedTarget s i r).isSome

/-! ### The evaluation of a frame by the filter engine (13 R337) -/

/-- Stuff bits that go ahead of the last bit of a list, after a run of `run` bits equal to `last` (11 R280). -/
def stuffsBefore (last : Bool) (run : Nat) : List Bool → Nat
  | [] => 0
  | b :: r =>
    if run = 9 then 1 + stuffsBefore b (if b = !last then 2 else 1) r
    else stuffsBefore b (if b = last then run + 1 else 1) r

/-- The ID bits in their order on the wire, ID[23] first. -/
def idBits (id : BitVec 24) : List Bool := (List.range 24).map fun k => id.getLsbD (23 - k)

/-- The lk in which the engine starts on the frame that a channel receives: 2 lk after the rising edge that samples
ID[0]. -/
def evalLk (s : State) (c : Chan) : Nat :=
  let j := s.chan c
  j.sofAt + (24 + stuffsBefore false 1 (idBits j.rxId)) * s.clk.divNow[c] + 2

/-- The engine can be at work on the frame: it examines two of the 256 entries in each lk. -/
def evaluating (s : State) (c : Chan) : Bool :=
  (s.chan c).rxOpen && decide (evalLk s c ≤ s.now) && decide (s.now < evalLk s c + 128)

/-! ### Pending buffers (12 R319) -/

/-- A buffer waits for or is on its channel. -/
def waits (b : TxBuf) : Bool := b.state = .full || b.state = .wire || b.state = .orphan

/-- A buffer of the instance is pending on channel `c`. -/
def txPendingOn (s : State) (i : Inst) (c : Chan) : Bool :=
  (s.hdr (.jx c)).en && !siding s (.jx c) && allBufs.any fun b => waits ((s.inst i).buf (bufIx c b))

/-- STAT.TXPEND. -/
def txPend (s : State) (i : Inst) : Bool := allChans.any fun c => txPendingOn s i c

/-! ### Faults of the fatal class (15 R398) -/

/-- A fatal fault is present: a set source bit with LSEV 0b11. -/
def fatal (s : State) : Bool := (List.finRange 21).any fun k => s.flt.src.getLsbD k.val && s.flt.lsev[k] = 3

/-! ### Sources, severities and the units they fence (15 Tables 15.1 to 15.3) -/

/-- The page of a source (15 Table 15.1). -/
def srcBlk (k : Fin 21) : Blk :=
  if k.val < 8 then .prt (Fin.ofNat 8 k.val)
  else if k.val = 8 then .xlt
  else if k.val < 11 then .jx (Fin.ofNat 2 (k.val - 9))
  else if k.val = 11 then .mbr
  else if k.val < 16 then .mvf (Fin.ofNat 4 (k.val - 12))
  else if k.val = 16 then .upl
  else if k.val = 17 then .clk
  else if k.val = 18 then .pwr
  else if k.val = 19 then .opt else .bkp

/-- The fixed class of an ERR bit, as a severity (15 Table 15.2). -/
def bitClass (b : Blk) (i : Nat) : Nat :=
  match b with
  | .prt _ => if i = 3 then 1 else 2
  | .xlt => if i = 3 then 2 else 1
  | .jx _ => if i = 2 then 1 else 2
  | .upl => 1
  | .clk => if i = 1 then 3 else 2
  | .mbr | .mvf _ | .pwr | .opt | .bkp => 2
  | .sys | .pin | .rst | .flt | .hub | .ttb | .dbg => 0

/-- The ERR bits of a page as its error line carries them to the Signal box, one lk late (15 R389): those that are set, and those
that were at the end of the lk before. -/
def lineErr (s : State) (b : Blk) : Word := (s.hdr b).err ||| (s.hdr b).errLine

/-- The highest class among the set ERR bits of a page; no page has more than four (15 R391). -/
def fixedSev (s : State) (b : Blk) : Nat :=
  (List.range 4).foldl (fun a i => if bitAt (lineErr s b) i then max a (bitClass b i) else a) 0

/-- The effective severity of a source (15 R391). -/
def effSev (s : State) (k : Fin 21) : Nat :=
  if s.flt.mode.getLsbD k.val then (s.hdr (srcBlk k)).sev.toNat else fixedSev s (srcBlk k)

/-- The units of the fatal reaction (15 R398). -/
def fatalUnits : List Blk :=
  [.prt 0, .prt 1, .prt 2, .prt 3, .prt 4, .prt 5, .prt 6, .prt 7, .xlt, .jx 0, .jx 1, .mbr, .mvf 0, .mvf 1, .mvf 2,
   .mvf 3, .pwr]

/-- The unit that a source's contained reaction fences (15 Table 15.1). -/
def fenceUnit (b : Blk) : List Blk :=
  match b with
  | .prt _ | .xlt | .jx _ | .mbr | .mvf _ => [b]
  | .clk | .pwr => [.pwr]
  | .upl | .opt | .bkp | .sys | .pin | .rst | .flt | .hub | .ttb | .dbg => []

/-- The units a reaction at a severity fences (15 Table 15.3). -/
def reactUnits (b : Blk) (sev : Nat) : List Blk := if sev = 3 then fatalUnits else if sev = 2 then fenceUnit b else []

/-! ### Participants (14 Table 14.2, Table 14.3) -/

/-- The page of a participant. -/
def partBlk (p : Fin 21) : Blk :=
  if p.val = 0 then .upl else if p.val = 1 then .hub else if p.val = 2 then .ttb
  else if p.val < 11 then .prt (Fin.ofNat 8 (p.val - 3))
  else if p.val = 11 then .xlt
  else if p.val < 14 then .jx (Fin.ofNat 2 (p.val - 12))
  else if p.val = 14 then .mbr
  else if p.val < 19 then .mvf (Fin.ofNat 4 (p.val - 15))
  else if p.val = 19 then .pwr else .flt

/-- Bits of the participants. -/
def portBit (n : Port) : Nat := 3 + n.val
def chanBit (c : Chan) : Nat := 12 + c.val
def instBit (i : Inst) : Nat := 15 + i.val

/-- A participant that has consented is held (R369). -/
def held (s : State) (bit : Nat) : Bool := s.pwr.consented.getLsbD bit

/-- A translator item of the port is on its Basic lane. -/
def laneUsed (p : XPort) : Bool := p.items.any fun i => i.onLane

/-- A transaction is on DDn. -/
def laneBusy (s : State) (n : Port) : Bool := (s.upl.txn.target == .port n && !s.upl.txn.mute) || laneUsed (s.xport n)

/-- An EP0 control transfer runs. -/
def ep0Busy (e : Ep0) : Bool := e.stage ≠ .none && e.stage ≠ .halted

/-- The busy conditions of Table 14.3, for a block that works. -/
def workBusy (s : State) (b : Blk) : Bool :=
  match b with
  | .upl => !s.upl.linkup || (s.upl.txn.target ≠ .none && !s.upl.txn.poll) || decide (s.upl.wakeLk ≠ 0)
  | .hub => ep0Busy (s.ep .hub) || ep0Busy (s.ep .bridge)
  | .ttb => s.ttb.now.toList.any fun v => v ≠ 0
  | .prt n =>
    let p := s.port n
    p.state = .pwg || p.state = .rst || p.state = .rsm || p.pwrPend || p.debounce || laneBusy s n
  | .xlt => allPorts.any fun n => laneUsed (s.xport n)
  | .jx c => (s.chan c).bus ≠ .idle || !s.clk.strobe[c].high
  | .mbr => (allInsts.any fun i => recordMoves s i || (s.inst i).rx.any fun e => e.state = .alloc) || allChans.any (evaluating s)
  | .mvf i => !(s.inst i).staging.isEmpty || (s.inst i).bufs.toList.any fun b => b.state = .wire
  | .sys | .pin | .clk | .rst | .opt | .bkp | .pwr | .flt | .dbg => false

/-- Busy by R367: in Block reset always, disabled or in Siding never. The power controller delays while VBUSY is 1
(R368). -/
def busy (s : State) (p : Fin 21) : Bool :=
  let b := partBlk p
  if (s.hdr b).inrst then true
  else if p.val = 19 then s.clk.vbusy
  else if !(s.hdr b).en || siding s b then false
  else workBusy s b

/-- The refusals that override PWR_VOTE, with their reasons (R368): TXPEND 3, FATAL 4, FENCED 5. The fatal reaction fences
the power controller, which then refuses with FATAL (15 R398). -/
def override (s : State) (p : Fin 21) : Option (BitVec 4) :=
  if p.val = 12 && allInsts.any (fun i => txPendingOn s i 0) then some 3
  else if p.val = 13 && allInsts.any (fun i => txPendingOn s i 1) then some 3
  else if p.val = 19 && fatal s && siding s .pwr then some 4
  else if p.val = 19 && siding s .pwr then some 5
  else if p.val = 20 && fatal s then some 4
  else none

/-- The policy for the state of the round (R367): PARK for Park, RETAIN for Retain and Heron. -/
def policy (s : State) (b : Blk) : BitVec 2 :=
  match s.pwr.rstate with
  | .park => (s.hdr b).park
  | .retain | .heron => (s.hdr b).retain

/-- DELAY_MAX in lk: units of 256, 0 treated as 1 (02 Table 2.9). -/
def delayLk (h : Hdr) : Nat := 256 * (if h.delayMax = 0 then 1 else h.delayMax.toNat)

/-- A vote. -/
inductive Vote where
  | consent
  | delay
  | refuse (reason : BitVec 4)
  deriving DecidableEq

/-- The vote of a participant in this lk (R367, R368). Reasons: POLICY 1, DELAY 2. The power controller delays in every lk
in which VBUSY is 1. -/
def voteOf (s : State) (p : Fin 21) : Vote :=
  match override s p with
  | some r => .refuse r
  | none =>
    if p.val = 19 && s.clk.vbusy then .delay
    else if held s p.val then .consent
    else if 19 ≤ p.val then (if busy s p then .delay else .consent)
    else
      let b := partBlk p
      if policy s b = 0 then
        if !busy s p then .consent
        else if s.pwr.roundAt + delayLk (s.hdr b) ≤ s.now then .refuse 2 else .delay
      else if policy s b = 1 then .consent
      else .refuse 1

/-- The refusal with the lowest bit index (R368). -/
def firstRefusal (s : State) : Option (Fin 21 × BitVec 4) :=
  (List.finRange 21).findSome? fun p => match voteOf s p with
    | .refuse r => some (p, r)
    | .consent | .delay => none

/-- The participants that consent in this lk. -/
def consents (s : State) : BitVec 21 :=
  (List.finRange 21).foldl (fun (a : BitVec 21) p =>
    if voteOf s p = .consent then a ||| BitVec.ofNat 21 (1 <<< p.val) else a) 0

/-- Every participant has consented, and no level transition runs (R368, 04 R104). -/
def allConsented (s : State) : Bool := s.pwr.consented = BitVec.allOnes 21 && !s.clk.vbusy

/-! ### The end of a round (14 R371, R373) -/

/-- STATE code of a low-power state. -/
def lowCode : LowState → BitVec 2
  | .park => 1 | .retain => 2 | .heron => 3

/-- VSEL code of a level (04 Table 4.2). -/
def levelCode (l : Fin 4) : Fin 4 := if l = 0 then 0 else if l = 1 then 1 else 2

/-- The wake latch is disarmed and cleared. -/
def disarmLatch (s : State) : State :=
  { s with aon := { s.aon with armed := false, latched := 0, first := 0, early := false } }

/-- Every held participant is released and the idle count starts again (R371, R379). -/
def releaseRound (s : State) : State :=
  disarmLatch { s with pwr := { s.pwr with round := .none, consented := 0, idleCnt := 0, entry := 0 } }

/-- The VSEL codes driven one per lk on the way to a code: a two-bit change passes through 0b00, or between 0b00 and 0b11
through 0b01 (04 R99; R377, R383). -/
def vselPath (a b : Fin 4) : List (Fin 4) :=
  if a = b then []
  else if (a = 1 && b = 2) || (a = 2 && b = 1) then [0, b]
  else if (a = 0 && b = 3) || (a = 3 && b = 0) then [1, b]
  else [b]

/-- Step X1: VSEL returns to CUR's code, one change in each lk (Table 14.6). -/
def vselBack (s : State) : State :=
  { s with clk := { s.clk with vsteps := vselPath s.clk.vcode (levelCode s.clk.cur) } }

/-- A core gated for Retain or Heron is restored from step X1, and PGOOD is awaited (R373). -/
def restoreCore (s : State) : State :=
  if s.pwr.gated then vselBack { s with pwr := { s.pwr with exit := .abort } } else s

/-- A round is refused or aborted with a reason and a block code (R371); after the agreement the detector re-arms and
the core is restored (R373). -/
def endRound (s : State) (reason : BitVec 4) (block : Byte) : State :=
  let s1 := evt { s with pwr := { s.pwr with
    refused := satInc 0xFFFF s.pwr.refused, refState := lowCode s.pwr.rstate, refReason := reason,
    refBlock := block } } .pwr 3
  let s2 := if s1.pwr.round = .preadySent then
    restoreCore { s1 with clk := { s1.clk with armed := true } } else s1
  releaseRound s2

/-- The votes of one lk: a refusal ends the round, consents are kept (R367–R371). -/
def settleRound (s : State) : State :=
  match s.pwr.round with
  | .none => s
  | .voting | .agreed | .preadySent =>
    match firstRefusal s with
    | some (p, r) => endRound s r (BitVec.ofNat 8 (blkPage (partBlk p)))
    | none => { s with pwr := { s.pwr with consented := s.pwr.consented ||| consents s } }

/-- A round starts (R370), unless PWR is in Block reset (05 Table 5.7); the wake latch is armed from round lk 0 (R380). -/
def startRound (s : State) (st : LowState) : State :=
  if s.pwr.round = .none && s.pwr.low.isNone && s.pwr.exit = .none && !(s.hdr .pwr).inrst then
    { s with pwr := { s.pwr with round := .voting, rstate := st, consented := 0, roundAt := s.now },
             aon := { s.aon with armed := true, latched := 0, first := 0, early := false } }
  else s

/-- Every participant is idle and votes nothing that R368 refuses (R379). -/
def allIdle (s : State) : Bool :=
  (List.finRange 21).all fun p => !busy s p && (override s p).isNone

end Sys2Proof.Machine
end

