-- ==== Sys2Proof/Machine/Flags.lean ====
section
/-! DEFINITION. The flags that follow the state: level events and level errors of every page (02 R40–R42), and how each
command ends. -/

namespace Sys2Proof.Machine

/-- Number of QUEUED entries of an instance (13 Table 13.7 RXSTAT.QUEUED). -/
def rxQueuedCount (m : Mvf) : Nat := (m.rx.filter fun e => e.state = .queued).length

/-- The level conditions of a page as its EVT_RAW shows them, the block-specific ones: STGEMPTY and RXAVAIL of an
instance (12 Table 12.11, 13 Table 13.6). -/
def levelBlock (s : State) (b : Blk) : Word :=
  match b with
  | .mvf i =>
    pack [(3, b2n (s.inst i).staging.isEmpty), (13, b2n (decide (0 < rxQueuedCount (s.inst i))))]
  | .sys | .pin | .clk | .rst | .opt | .bkp | .pwr | .flt | .upl | .hub | .ttb | .prt _ | .xlt | .jx _ | .mbr
  | .dbg => 0

/-- Bit 31 of EVT_RAW: ERR is non-zero (R40). -/
def levelErr (h : Hdr) : Word := if h.err = 0 then 0 else oneBit 31

/-- EVT_RAW between two happenings: only level events show (02 Table 2.6). -/
def evtRaw (s : State) (b : Blk) : Word := levelErr (s.hdr b) ||| levelBlock s b

/-- The page whose header stands at an index. -/
def blkOf (k : Nat) : Blk :=
  if k = 0 then .sys else if k = 1 then .pin else if k = 2 then .clk else if k = 3 then .rst
  else if k = 4 then .opt else if k = 5 then .bkp else if k = 6 then .pwr else if k = 7 then .flt
  else if k = 8 then .upl else if k = 9 then .hub else if k = 10 then .ttb
  else if k < 19 then .prt (Fin.ofNat 8 (k - 11))
  else if k = 19 then .xlt
  else if k < 22 then .jx (Fin.ofNat 2 (k - 20))
  else if k = 22 then .mbr
  else if k < 27 then .mvf (Fin.ofNat 4 (k - 23))
  else .dbg

/-- PFLT_Nn, which a port in SID watches, has read low for the last 64 lk (09 R225, 15 Table 15.2). In the other states in
which a port watches it, the overcurrent takes the port to OFF. -/
def ovcLevel (s : State) (n : Port) : Bool := (s.port n).pflt && decide ((s.port n).state = .sid)

/-- OVC of a port in SID. -/
def levelOvc (s : State) (n : Port) : State := if ovcLevel s n then raise s (.prt n) 0 else s

/-- OPT IMGBAD while FALLBACK is 1 (05 Table 5.12). -/
def levelImg (s : State) : State := if s.opt.fallback then raise s .opt 0 else s

/-- Level causes of errors set their bits. -/
def levelErrors (s : State) : State := allPorts.foldl levelOvc (levelImg s)

/-- Level events set the enabled EVT_PND bits of every page (R41). -/
def levelEvents (s : State) : State :=
  { s with hdrs := s.hdrs.mapIdx fun k h =>
      { h with evtPnd := h.evtPnd ||| (h.evtEn &&& (levelErr h ||| levelBlock s (blkOf k))) } }

/-- An lk that is not an idle lk sets the idle count to 0 (14 R379). -/
def idleBreak (s : State) : State :=
  if s.pwr.idleCnt ≠ 0 && !allIdle s then { s with pwr := { s.pwr with idleCnt := 0 } } else s

/-- What holds again after every command: the votes of a round in progress, the idle count, the level errors and the
level events. -/
def settle (s : State) : State := levelEvents (levelErrors (idleBreak (settleRound s)))

/-- A command ends. -/
def done (s : State) : Out := .next (settle s)

/-- A command of the clocked core: without service of the core the happening cannot come, and nothing changes
(log 1). -/
def coreCmd (f : State → State) (s : State) : Out := if coreRuns s then done (f s) else .next s

/-- A register command of a page: it has no effect during the page's Block reset (02 R38). -/
def pageCmd (b : Blk) (f : State → State) (s : State) : Out :=
  if (s.hdr b).inrst then .next s else coreCmd f s

end Sys2Proof.Machine
end

