-- ==== Sys2Proof/Machine/Operands.lean ====
section
/-! DEFINITION. The forms of the operands: packets and their CRCs (07), the answers the hub sends upstream, Jexast frames
and their CRC-21 (11), lengths on the lane. -/

namespace Sys2Proof.Machine

/-! ### Headers and CRC-6 (07 Table 7.1, R169, R170) -/

/-- TYPE of a header. -/
def hType (h : BitVec 32) : BitVec 4 := h.extractLsb' 0 4
def hAddr (h : BitVec 32) : BitVec 7 := h.extractLsb' 4 7
def hEp (h : BitVec 32) : BitVec 4 := h.extractLsb' 11 4
def hSeq (h : BitVec 32) : Bool := h.getLsbD 15
def hLen (h : BitVec 32) : BitVec 10 := h.extractLsb' 16 10
def hCrc (h : BitVec 32) : BitVec 6 := h.extractLsb' 26 6

/-- One step of the CRC-6 register for one header bit (R169). -/
def crc6Step (crc : BitVec 6) (b : Bool) : BitVec 6 :=
  let fb := xor b (crc.getLsbD 5)
  let c := crc <<< 1
  if fb then c ^^^ 0b000011#6 else c

/-- HCRC of a header: bits 0 to 25 in transmission order from 0b11_1111 (R169). -/
def crc6 (h : BitVec 32) : BitVec 6 :=
  (List.range 26).foldl (fun c i => crc6Step c (h.getLsbD i)) 0b111111#6

/-- A header made of its fields, with its HCRC (Table 7.1). -/
def mkHeader (typ : BitVec 4) (addr : BitVec 7) (ep : BitVec 4) (seq : Bool) (len : BitVec 10) : BitVec 32 :=
  let low : BitVec 26 := len ++ (BitVec.ofBool seq) ++ ep ++ addr ++ typ
  let w : BitVec 32 := low.setWidth 32
  (crc6 w).setWidth 32 <<< 26 ||| w

/-! ### Data CRC-32 (07 R171) -/

/-- One bit of the reflected CRC-32. -/
def crc32Bit (c : BitVec 32) : BitVec 32 :=
  if c.getLsbD 0 then (c >>> 1) ^^^ 0xEDB88320#32 else c >>> 1

/-- One payload byte. -/
def crc32Byte (c : BitVec 32) (b : Byte) : BitVec 32 :=
  (List.range 8).foldl (fun a _ => crc32Bit a) (c ^^^ b.setWidth 32)

/-- The data CRC of a payload (R171). -/
def crc32 (l : List Byte) : BitVec 32 := (l.foldl crc32Byte 0xFFFFFFFF#32) ^^^ 0xFFFFFFFF#32

/-! ### Packets on a lane (07 Tables 7.1 and 7.2) -/

/-- The start delimiter (R166). -/
def delimiter : BitVec 16 := 0x7E81

/-- A packet made of its fields: no payload and no data CRC where there are no bytes, at the width `x2`. -/
def mkPkt (typ : BitVec 4) (addr : BitVec 7) (ep : BitVec 4) (seq : Bool) (len : BitVec 10) (p : List Byte) (x2 : Bool) :
    RawPkt :=
  ⟨delimiter, mkHeader typ addr ep seq len, p, if p.isEmpty then 0 else crc32 p, x2⟩

/-- TYPE of what the hub originates (Table 7.2). -/
def respType : RespType → BitVec 4
  | .data => 7 | .dataz => 8 | .ack => 9 | .nrdy => 10 | .stall => 11 | .pready => 13

/-- An answer as it stands on the upstream lanes, at x2 where the link is trained so (06 R145). -/
def answerPkt (s : State) (a : Answer) : RawPkt := mkPkt (respType a.typ) a.addr a.ep a.seq a.len a.payload s.upl.x2

/-- FSTART of a frame (Table 7.2, R167). -/
def fstartPkt (f : BitVec 16) : RawPkt := mkPkt 12 127 0 false 1 (halfBytes f) false

/-- A port that receives what the host sends: ENABLED at Full. -/
def fullEnabled (s : State) (n : Port) : Bool := (s.port n).state == .ena && (s.port n).full

/-- Send to the ports: `f n` on each ENABLED Full port, nothing elsewhere. -/
def sendDown (s : State) (f : Port → Sent) : State :=
  { s with sent := Vector.ofFn fun n => if fullEnabled s n then some (f n) else none }

/-- An FSTART: whole, but a masked header on a port that is being suspended (R175), or that sends none before the next local lk 0
after a resume (09 R235). -/
def fstartDown (s : State) (p : RawPkt) : State :=
  sendDown s fun n => if (s.port n).suspReq || (s.port n).noFs then .masked p.header else .repeated p

/-- A packet of the translator on the lane of port `n` (10 R257, R261). -/
def sendOwn (s : State) (n : Port) (p : RawPkt) : State := { s with sent := s.sent.set n.val (some (.own p)) n.isLt }

/-! ### Jexast CRC-21 (11 R281) -/

def crc21Step (crc : BitVec 21) (b : Bool) : BitVec 21 :=
  let fb := xor b (crc.getLsbD 20)
  let c := crc <<< 1
  if fb then c ^^^ 0x0D0F35#21 else c

/-- The destuffed bits of a frame from SOF through the last data bit (11 Table 11.1): a dominant SOF, ID[23] first,
LEN[6] first, each byte bit 7 first. -/
def jxBits (id : BitVec 24) (data : List Byte) : List Bool :=
  false :: (((List.range 24).map fun i => id.getLsbD (23 - i))
    ++ ((List.range 7).map fun i => (BitVec.ofNat 7 data.length).getLsbD (6 - i))
    ++ data.flatMap fun b => (List.range 8).map fun i => b.getLsbD (7 - i))

/-- CRC-21 of a Jexast frame (R281). -/
def crc21 (id : BitVec 24) (data : List Byte) : BitVec 21 := (jxBits id data).foldl crc21Step 0x1FFFFF#21

/-! ### Lengths on the upstream lanes (07 Table 7.3) -/

/-- lk of a header-only packet. -/
def tokenLk (x2 : Bool) : Nat := if x2 then 16 else 24

/-- lk of a data packet of `n` bytes. -/
def dataLk (x2 : Bool) (n : Nat) : Nat := if x2 then 24 + 2 * n else 40 + 4 * n

/-- A DATA of `n` bytes that begins in this lk ends by the babble point 32,704 + E (07 R189). -/
def dataFits (s : State) (n : Nat) : Bool :=
  decide (lkNow s + dataLk s.upl.x2 n ≤ 32704 + captureOffset s)

/-- The request is late: its first delimiter bit is sampled after the cut-off 32,256 + E (07 R189). -/
def pastCutoff (s : State) : Bool := decide (32256 + captureOffset s < lkNow s)

/-! ### Answers -/

/-- Send an answer upstream. -/
def reply (s : State) (t : RespType) (addr : BitVec 7) (ep : BitVec 4) (seq : Bool) (len : Nat) (p : List Byte) :
    State :=
  { s with answer := some ⟨t, addr, ep, seq, BitVec.ofNat 10 len, p⟩ }

/-- Send nothing. -/
def silent (s : State) : State := { s with answer := none }

/-- The ADDR that a function's answer carries: that of the packet which started the transaction, which may still be the
old address (07 R167, 08 R197); where the packet's own command did not come first, the address in force. -/
def fAddr (s : State) (f : Func) : BitVec 7 :=
  if s.upl.txn.target == .portI then s.upl.txn.addr
  else match f with
    | .hub => s.hub.addr
    | .bridge => s.hub.brAddr

/-- A handshake of a function: it carries the ADDR, EP and SEQ of the packet answered (07 R167). -/
def shake (s : State) (f : Func) (t : RespType) (ep : BitVec 4) (seq : Bool) : State :=
  reply s t (fAddr s f) ep (if t = .stall then false else seq) 0 []

/-- A DATA, or a DATAZ where there are no bytes, of a function. -/
def sendData (s : State) (f : Func) (ep : BitVec 4) (seq : Bool) (p : List Byte) : State :=
  if p.isEmpty then reply s .dataz (fAddr s f) ep seq 0 [] else reply s .data (fAddr s f) ep seq (p.length - 1) p

/-- The function is present to answer: the hub function always, the bridge function while it is present (08 R196,
R199). -/
def fPresent (s : State) : Func → Bool
  | .hub => true
  | .bridge => s.hub.brPres

end Sys2Proof.Machine
end

