-- ==== Sys2Proof/Machine/Rx.lean ====
section
/-! DEFINITION. The Message Bridge, receive side: filters, pool, queues, the RX window and the IN endpoints (13). -/

namespace Sys2Proof.Machine

/-! ### Pool and quotas (13 R340–R342) -/

/-- Held(n). -/
def heldBy (s : State) (i : Inst) : Nat := (s.inst i).rx.length

/-- Σ held. -/
def heldAll (s : State) : Nat := (allInsts.map (heldBy s)).sum

/-- Σ over m of max(0, MIN(m) − held(m)). -/
def reservedAll (s : State) : Nat := (allInsts.map fun m => s.mbr.qMin[m] - heldBy s m).sum

/-- Free entries of the pool. -/
def poolFree (s : State) : Nat := 512 - heldAll s

/-- The allocation test of R341; the pool has 512 entries and gives none beyond them (R340; DEDUCED, log 36). -/
def canAlloc (s : State) (i : Inst) : Bool :=
  decide (heldAll s < 512) && decide (heldBy s i < s.mbr.qMax[i]) &&
    (decide (heldBy s i < s.mbr.qMin[i]) || decide (reservedAll s < poolFree s))

/-- CHUSE: held entries whose frame came from channel `c` (R362). -/
def chUse (s : State) (c : Chan) : Nat :=
  (allInsts.map fun i => ((s.inst i).rx.filter fun e => e.chan = c).length).sum

/-- The Sluice pin's rule, applied to the count of this lk (R362). -/
def flowNext (hi lo use : Nat) (cur : Bool) : Bool :=
  if hi = 0 then false else if hi ≤ use then true else if use ≤ lo then false else cur

/-- Re-evaluate one Sluice pin: an assertion is counted and raises FLOWx (R362). -/
def flowEval (s : State) (c : Chan) : State :=
  let new := flowNext s.mbr.wmHi[c] s.mbr.wmLo[c] (chUse s c) s.mbr.flow[c]
  let s1 := { s with mbr := { s.mbr with flow := s.mbr.flow.set c.val new c.isLt } }
  if new && !s.mbr.flow[c] then
    evt { s1 with mbr := { s1.mbr with flowCnt := s1.mbr.flowCnt.set c.val (inc16 s1.mbr.flowCnt[c]) c.isLt } }
      .mbr (8 + c.val)
  else s1

/-- After the pool changed: both pins, and the low-water mark of DBG (R362, 02 Table 2.12). -/
def poolChanged (s : State) : State :=
  let s1 := flowEval (flowEval s 0) 1
  { s1 with dbg := { s1.dbg with lowest := min s1.dbg.lowest (poolFree s1) } }

/-- A frame is lost for an instance: the loss latch, LOST and RXLOSS (R361). -/
def rxLose (s : State) (i : Inst) : State :=
  let s1 := s.modInst i fun m => { m with lossLatch := true }
  evt { s1 with mbr := { s1.mbr with lost := s1.mbr.lost.set i.val (inc16 s1.mbr.lost[i]) i.isLt } } (.mvf i) 10

/-! ### Entries (13 Table 13.2) -/

/-- Word `w` of an entry. -/
def entryWord (e : RxEntry) (w : Nat) : Word :=
  if w = 0 then
    pack [(31, 1), (30, e.chan.val), (29, b2n e.urg), (28, b2n e.dupl), (27, b2n e.mirr), (26, b2n e.loss),
      (25, b2n e.aged), (24, b2n e.late), (0, e.id.toNat)]
  else if w = 1 then pack [(16, e.frame.toNat), (0, e.lk.toNat)]
  else if w = 2 then
    pack [(16, e.seq.toNat), (8, e.fidx.toNat), (7, b2n e.isDef), (0, e.data.length)]
  else if w = 3 then pack [(16, e.dnum.toNat), (8, e.eprio.toNat), (2, e.bank.val), (1, b2n e.rsnt)]
  else wordAt e.data (4 * (w - 4))

/-- The 80 bytes of an entry, word 0 first and each word LSB first (R354). -/
def entryBytes (e : RxEntry) : List Byte := (List.range 20).flatMap fun w => wordBytes (entryWord e w)

/-! ### Queue order (13 R344, R348) -/

/-- The key of R344: EPRIO followed by ID[20:0]. -/
def rxKey (e : RxEntry) : Nat := e.eprio.toNat * 2 ^ 21 + e.id.toNat % 2 ^ 21

/-- Order of two entries by rules 1 to 3 of R344. -/
def rxBefore (a b : RxEntry) : Bool :=
  match a.aged, b.aged with
  | true, true => decide (a.agedAt < b.agedAt) || (decide (a.agedAt = b.agedAt) && decide (a.arr < b.arr))
  | true, false => true
  | false, true => false
  | false, false => decide (rxKey a < rxKey b) || (decide (rxKey a = rxKey b) && decide (a.arr < b.arr))

/-- Split a list behind its last element that has the given identifier. -/
def splitLastId (id : BitVec 24) : List RxEntry → List RxEntry × List RxEntry
  | [] => ([], [])
  | e :: r =>
    let p := splitLastId id r
    if p.1.isEmpty then (if e.id = id then ([e], r) else ([], e :: r)) else (e :: p.1, p.2)

/-- Insert by order. -/
def rxInsertBy (e : RxEntry) : List RxEntry → List RxEntry
  | [] => [e]
  | a :: r => if rxBefore e a then e :: a :: r else a :: rxInsertBy e r

/-- Take a stage: by rules 1 to 3, and never ahead of an entry of equal ID that arrived before (R344). -/
def rxStage (q : List RxEntry) (e : RxEntry) : List RxEntry :=
  let p := splitLastId e.id q
  p.1 ++ rxInsertBy e p.2

/-- Insert by arrival order. -/
def rxArrive (e : RxEntry) : List RxEntry → List RxEntry
  | [] => [e]
  | a :: r => if e.arr < a.arr then e :: a :: r else a :: rxArrive e r

/-- The Sorting chain of a set of entries: each takes its stage in arrival order. -/
def chainOf (l : List RxEntry) : List RxEntry := (l.foldl (fun a e => rxArrive e a) []).foldl rxStage []

def rxQueued (m : Mvf) : List RxEntry := m.rx.filter fun e => e.state = .queued

/-- The entries that reading paths take from, in order: the chain, or the draining bank (R344, R348). -/
def rxQueue (m : Mvf) : List RxEntry :=
  if m.qorg then (rxQueued m).filter fun e => e.bank = m.dbank else chainOf (rxQueued m)

/-- The bank that is filling. -/
def fillBank (m : Mvf) : Fin 2 := if m.dbank = 0 then 1 else 0

/-- The banks swap when the draining bank has no QUEUED entry and the filling bank has one (R348). -/
def bankSwap (m : Mvf) : Mvf :=
  if m.qorg && ((rxQueued m).filter fun e => e.bank = m.dbank).isEmpty &&
      !((rxQueued m).filter fun e => e.bank = fillBank m).isEmpty then
    { m with dbank := fillBank m }
  else m

/-- BANKSIZE in force: 0 acts as 128 (R348). -/
def bankCap (m : Mvf) : Nat := if m.bankSize = 0 then 128 else m.bankSize

/-- Update the held entries that satisfy a test. -/
def rxMap (m : Mvf) (p : RxEntry → Bool) (f : RxEntry → RxEntry) : Mvf :=
  { m with rx := m.rx.map fun e => if p e then f e else e }

/-- Free the held entries that satisfy a test. -/
def rxFree (m : Mvf) (p : RxEntry → Bool) : Mvf := { m with rx := m.rx.filter fun e => !p e }

/-- SELECT one entry for a path: it leaves the queue and takes the instance's next delivery number if it has none
(R350, R354). -/
def rxSelect (m : Mvf) (arr : Nat) (st : RxState) : Mvf :=
  match m.rx.find? fun e => e.arr = arr with
  | none => m
  | some e =>
    let num := !e.numbered
    bankSwap { rxMap m (fun x => x.arr = arr) (fun x =>
        { x with state := st, dnum := if num then m.nextDnum else x.dnum, numbered := true }) with
      nextDnum := if num then m.nextDnum + 1 else m.nextDnum }

/-- SELECT several entries in order. -/
def rxSelectAll (m : Mvf) (arrs : List Nat) (st : RxState) : Mvf := arrs.foldl (fun a x => rxSelect a x st) m

/-- Delivery of the entries a path holds: READ in queue mode, freed in mailbox mode (R351, R356). -/
def rxDeliver (m : Mvf) (st : RxState) : Mvf :=
  if m.cmode then rxFree m (fun e => e.state = st) else rxMap m (fun e => e.state = st) (fun e => { e with state := .read })

/-- The reading paths are out of service (R353). -/
def rxOff (s : State) (i : Inst) : Bool :=
  !(s.hdr (.mvf i)).en || siding s (.mvf i) || !(s.hdr .mbr).en || (s.hdr .mbr).inrst

/-- An uncorrectable entry found at selection is freed and lost: RXECC, the loss latch and the DBG counters (R361,
02 Table 2.12). -/
def rxSpoil (s : State) (i : Inst) (e : RxEntry) : State :=
  let s1 := raise (s.modInst i fun m => bankSwap (rxFree m fun x => x.arr = e.arr)) (.mvf i) 1
  poolChanged (rxLose (sramUnc s1) i)

/-- The checks of the entries that a path selects in the order of its queue `q`, `want` of them, from position `pos` on: an
uncorrectable entry is lost and the selection goes on with the next (R361). Entries beyond the list are clean. -/
def rxCheck (q : Mvf → List RxEntry) : List SramRead → Nat → Nat → State → Inst → State
  | [], _, _, s, _ => s
  | r :: l, want, pos, s, i =>
    if want = 0 then s
    else match (q (s.inst i))[pos]? with
      | none => s
      | some e => match r with
        | some k => rxCheck q l (want - 1) (pos + 1) (sramCorr s k) i
        | none => rxCheck q l want pos (rxSpoil s i e) i

/-! ### The RX window (13 R350–R353) -/

/-- The current entry. -/
def rxCurrent (m : Mvf) : Option RxEntry := m.rx.find? fun e => e.state = .current

/-- A read of RXWIN0 finds no item (R352). -/
def winEmpty (s : State) (i : Inst) : Bool :=
  !rxOff s i && (rxCurrent (s.inst i)).isNone && (rxQueue (s.inst i)).isEmpty

/-- The side effect of RXWIN0: the head entry becomes current where there is none (R350). -/
def winTake (s : State) (i : Inst) : State :=
  if rxOff s i || (rxCurrent (s.inst i)).isSome then s
  else match rxQueue (s.inst i) with
    | [] => s
    | e :: _ => s.modInst i fun m => rxSelect m e.arr .current

/-- What RXWIN`w` shows (R350, R353). -/
def winWord (s : State) (i : Inst) (w : Nat) : Word :=
  if rxOff s i then 0
  else match rxCurrent (s.inst i) with
    | some e => entryWord e w
    | none => 0

/-- Release of the current entry by a read of RXWIN19 (R351). -/
def winRelease (s : State) (i : Inst) : State :=
  poolChanged (s.modInst i fun m => rxDeliver m .current)

/-- Release of the current entry by DROP: the entry is freed (R351). -/
def winDrop (s : State) (i : Inst) : State :=
  poolChanged (s.modInst i fun m => rxFree m fun e => e.state = .current)

/-- RESEND: every READ entry of a queue-mode instance returns to the queue with RSNT; a chain keeps at most 32 QUEUED
entries, dropping from its end (R358, R346). -/
def chainTrim (m : Mvf) : Mvf :=
  if m.qorg then m
  else
    let gone := ((chainOf (rxQueued m)).drop 32).map (·.arr)
    rxFree m fun e => e.state = .queued && gone.contains e.arr

def rxResend (s : State) (i : Inst) : State :=
  let m := s.inst i
  if m.cmode then s
  else
    let back := ((m.rx.filter fun e => e.state = .read).foldl (fun a e => rxArrive e a) []).map fun e =>
      { e with state := .queued, rsnt := true, numbered := false, bank := if m.qorg then m.dbank else 0 }
    let m1 := { m with rx := back ++ m.rx.filter fun e => e.state ≠ .read }
    let m2 := bankSwap (chainTrim m1)
    let s1 := s.setInst i m2
    poolChanged ((List.range (m1.rx.length - m2.rx.length)).foldl (fun a _ => rxLose a i) s1)

/-- RXACK: frees every READ entry with (UPTO − d) mod 65,536 < 32,768, in queue mode (R357). -/
def rxAck (s : State) (i : Inst) (upto : Half) : State :=
  if (s.inst i).cmode then s
  else poolChanged (s.modInst i fun m =>
    rxFree m fun e => e.state = .read && decide ((upto - e.dnum).toNat < 32768))

/-! ### Filters (13 R335–R338) -/

/-- Word `w` of filter entry `k` of a channel. -/
def flmAddr (c : Chan) (k w : Nat) : Nat := 0x3000 + 0x800 * c.val + 8 * k + 4 * w

/-- Table 13.1: does an entry with these words match an identifier (R336). -/
def flmMatch (w0 w1 : Word) (id : BitVec 24) : Bool :=
  let a : BitVec 24 := w0.setWidth 24
  let b : BitVec 24 := w1.extractLsb' 0 16 ++ w0.extractLsb' 24 8
  bitAt w1 31 &&
    match fld w1 29 2 with
    | 0 => decide (a.toNat ≤ id.toNat) && decide (id.toNat ≤ b.toNat)
    | 1 => decide (id = a) || decide (id = b)
    | 2 => decide ((id ^^^ a) &&& b = 0)
    | _ => false

/-- A filter word as the engine finds it in lk `t`: its data, whether its parity fails, and whether it still stands so. A
write in lk `t` or later has not come yet (R337; log 40). -/
def flmAt (s : State) (a t : Nat) : Word × Bool × Bool :=
  match s.flmOld.find? fun o => decide (o.addr = a) && decide (t ≤ o.at_) with
  | some o => (o.val, o.bad, false)
  | none => (memWord s.mem a, s.parBad.contains a, true)

/-- What the walk of the list found: the deciding entry, none for the default action, and the failing words met, each with
whether it still stands so (R337, R339). -/
structure Walk where
  hit : Option (Nat × Word)
  bad : List (Nat × Bool)

/-- Walk `n` entries from entry `k`, two in each lk from lk `t` on. A failing word makes its entry not match (R339). -/
def flmWalk (s : State) (c : Chan) (bad : List (Fin 512)) (id : BitVec 24) (t : Nat) : Nat → Nat → Walk
  | 0, _ => ⟨none, []⟩
  | n + 1, k =>
    let at_ (w : Nat) : Word × Bool × Bool := flmAt s (flmAddr c k w) (t + k / 2)
    let fails (w : Nat) : List (Nat × Bool) :=
      if (at_ w).2.1 || bad.any fun x => x.val == 2 * k + w then [(2 * k + w, (at_ w).2.2)] else []
    let found := fails 0 ++ fails 1
    if found.isEmpty && flmMatch (at_ 0).1 (at_ 1).1 id then ⟨some (k, (at_ 1).1), []⟩
    else
      let r := flmWalk s c bad id t n (k + 1)
      ⟨r.hit, found ++ r.bad⟩

/-- A failing filter word is recorded: FLMWORD, FLMCNT, ERR.FLMPAR (R339). -/
def flmNote (s : State) (c : Chan) (w : Nat) : State :=
  raise (s.modChan c fun j => { j with flmCnt := inc16 j.flmCnt, flmWord := BitVec.ofNat 9 w }) (.jx c) 3

/-- A failing filter word that stands: a register read or the engine met it, and it fails until it is rewritten (R339). -/
def flmPar (s : State) (c : Chan) (w : Nat) : State :=
  let a := 0x3000 + 0x800 * c.val + 4 * w
  { flmNote s c w with parBad := if s.parBad.contains a then s.parBad else s.parBad ++ [a] }

/-- The failing words that a walk met. -/
def flmFound (s : State) (c : Chan) (l : List (Nat × Bool)) : State :=
  l.foldl (fun a x => if x.2 then flmPar a c x.1 else flmNote a c x.1) s

/-- The fields of an 11-bit action, W1[28:18] (Table 13.1). -/
structure Action where
  reject : Bool
  urgent : Bool
  dup    : Nat
  boost  : Nat
  accept : Nat

def actionOf (a : BitVec 11) : Action :=
  ⟨a.getLsbD 10, a.getLsbD 9, (a.toNat >>> 7) % 4, (a.toNat >>> 4) % 8, a.toNat % 16⟩

/-- The instances that an action accepts a frame to; a rejecting action accepts none (R338). -/
def acceptList (a : Action) : List Inst :=
  if a.reject then [] else allInsts.filter fun i => a.accept.testBit i.val

/-! ### Duplicates (13 R359, R360) -/

/-- A received frame as it is handed over: what the channel holds of it and what the hand-over brings (11 R285). -/
structure Heard where
  id    : BitVec 24
  frame : BitVec 16
  lk    : BitVec 15
  data  : List Byte
  crc   : BitVec 21
  late  : Bool
  /-- `now` at the sample of its start-of-frame bit. -/
  sofAt : Nat
  damaged     : Bool
  copyDamaged : Bool

/-- The cell time of the lk `t`, counted back from the present one; 04 R94 takes that of the rising strobe edge. -/
def cellAt (s : State) (t : Nat) : BitVec 31 :=
  (s.clk.frame ++ s.clk.lk) + BitVec.ofNat 31 t - BitVec.ofNat 31 s.now

/-- The frame that channel `c` receives, with the rest `f` of it. -/
def heardFrame (s : State) (c : Chan) (f : RxFrame) : Heard :=
  let j := s.chan c
  let t := j.stamp.getD (cellAt s j.sofAt)
  ⟨j.rxId, t.extractLsb' 15 16, t.setWidth 15, f.data, f.crc, j.lateAcc, j.sofAt, f.damaged, f.copyDamaged⟩

/-- 1,298 bit times of a channel at its DIV in force. -/
def dupWindow (s : State) (c : Chan) : Nat := 1298 * s.clk.divNow[c]

/-- The suppressor copy of the channel is compared with the frame (R359). -/
def copyRead (s : State) (c : Chan) (f : Heard) (a : Action) : Option DupCopy :=
  if a.dup = 0 then none
  else s.mbr.dup[c].filter fun d => d.live && decide (f.sofAt ≤ d.at_ + dupWindow s c)

/-- The suppressor copy is read with an uncorrectable error (01 R30): RXECC, and its window ends (log 38). -/
def copySpoilt (s : State) (c : Chan) (f : Heard) (a : Action) : Bool := f.copyDamaged && (copyRead s c f a).isSome

/-- The frame is a repeat of the suppressor copy of its channel (R359). -/
def isRepeat (s : State) (c : Chan) (f : Heard) (a : Action) : Bool :=
  !f.copyDamaged && (copyRead s c f a).any fun d =>
    decide (d.id = f.id) && decide (d.data = f.data) && decide (d.crc = f.crc)

/-- The mirror record matches the frame (R360). -/
def mirMatch (s : State) (c : Chan) (f : Heard) (r : MirRec) : Bool :=
  !r.used && decide (r.id = f.id) && decide (r.len = f.data.length) && decide (r.crc = f.crc) &&
    decide (f.sofAt ≤ r.at_ + dupWindow s c)

/-- Mark the first matching record as used. -/
def mirUse (s : State) (c : Chan) (f : Heard) : List MirRec → List MirRec
  | [] => []
  | r :: t => if mirMatch s c f r then { r with used := true } :: t else r :: mirUse s c f t

/-- Count a repeat or mirror copy for the accepting instances and raise DUPSEEN. -/
def dupSeen (s : State) (l : List Inst) : State :=
  evt { s with mbr := { s.mbr with
    dupCnt := l.foldl (fun v i => v.set i.val (inc16 v[i]) i.isLt) s.mbr.dupCnt } } .mbr 12

/-! ### Hand-over (13 R332–R341) -/

/-- Give one accepting instance its entry, or lose the frame for it (R341, R361, R363). -/
def allocFor (e : RxEntry) (s : State) (i : Inst) : State :=
  if (s.hdr (.mvf i)).inrst || (s.hdr .mbr).inrst then
    let s1 := if (s.hdr (.mvf i)).inrst then s.modInst i fun m => { m with rxDrop := satInc 511 m.rxDrop } else s
    rxLose (if (s.hdr .mbr).inrst then { s1 with mbr := { s1.mbr with rstDrop := satInc 511 s1.mbr.rstDrop } } else s1) i
  else if rxOff s i || !canAlloc s i then rxLose s i
  else
    nextStamp (s.modInst i fun m =>
      { m with rx := m.rx ++ [{ e with loss := m.lossLatch, arr := s.stamp }], lossLatch := false })

/-- The rest of a hand-over once the deciding action is known. A frame damaged in the receive buffer is lost for every instance
that accepts it; the buffer is no word of the SRAM (01 R30; log 38). -/
def handOver (s0 : State) (c : Chan) (f : Heard) (a : Action) (fidx : Option Nat) : State :=
  let acc := acceptList a
  let s := if copySpoilt s0 c f a then raise s0 .mbr 0 else s0
  let seq := s.mbr.seq[c]
  let s1 := { s with mbr := { s.mbr with seq := s.mbr.seq.set c.val (seq + 1) c.isLt } }
  let s2 := if acc.isEmpty then
      { s1 with mbr := { s1.mbr with rej := s1.mbr.rej.set c.val (inc16 s1.mbr.rej[c]) c.isLt } }
    else s1
  let rep := isRepeat s c f a
  let repDrop := rep && decide (2 ≤ a.dup)
  let used := { s2 with mbr := { s2.mbr with
    dup := s2.mbr.dup.set c.val (s2.mbr.dup[c].map fun d => { d with live := false }) c.isLt } }
  let s3 := if rep then dupSeen used acc else if copySpoilt s c f a then used else s2
  let o := otherChan c
  let mir := s.mbr.mirNow && !repDrop && (s.mbr.mir[o].any (mirMatch s c f))
  let s4 := if mir then
      dupSeen { s3 with mbr := { s3.mbr with mir := s3.mbr.mir.set o.val (mirUse s c f s3.mbr.mir[o]) o.isLt } } acc
    else s3
  let recs := s4.mbr.mir[c] ++ [(⟨f.id, f.data.length, f.crc, s.now, false⟩ : MirRec)]
  let last8 := recs.drop (recs.length - 8)
  let s5 := if s.mbr.mirNow && !repDrop then
      { s4 with mbr := { s4.mbr with mir := s4.mbr.mir.set c.val last8 c.isLt } }
    else s4
  let s6 := if f.late then
      { s5 with mbr := { s5.mbr with dup := s5.mbr.dup.set c.val (some ⟨f.id, f.data, f.crc, s.now, true⟩) c.isLt } }
    else s5
  let e : RxEntry :=
    { chan := c, urg := a.urgent, dupl := rep, mirr := mir, late := f.late, id := f.id, frame := f.frame, lk := f.lk,
      seq := seq, fidx := BitVec.ofNat 8 (fidx.getD 0), isDef := fidx.isNone, data := f.data,
      eprio := BitVec.ofNat 3 ((f.id.toNat >>> 21) - a.boost) }
  if f.damaged then raise (acc.foldl rxLose s6) .mbr 0
  else if repDrop || (mir && s.mbr.mirAct) then s6
  else poolChanged (acc.foldl (allocFor e) s6)

/-! ### Confinement (11 R291, R292) -/

/-- Error-passive: either counter at 128 or more, and not bus-off. -/
def passive (j : Jx) : Bool := !j.busOff && (decide (128 ≤ j.tec) || decide (128 ≤ j.recv))

/-- CONF (Table 11.8). -/
def confCode (j : Jx) : Nat := if j.busOff then (if j.counting then 3 else 2) else if passive j then 1 else 0

/-- PASSIVE and ACTIVE events of a change of the counters (Table 11.9). -/
def confine (s : State) (c : Chan) (f : Jx → Jx) : State :=
  let old := s.chan c
  let s1 := s.modChan c f
  let new := s1.chan c
  if !passive old && passive new then evt s1 (.jx c) 1
  else if passive old && !passive new && !new.busOff then evt s1 (.jx c) 2
  else s1

/-- The frame is accepted: RXOK and REC, or the acceptance recorded with its late error (R284, R291). -/
def acceptCount (s : State) (c : Chan) : State :=
  if (s.chan c).lateAcc then s.modChan c fun j => { j with lateAcc := false }
  else confine s c fun j =>
    { j with rxOk := inc16 j.rxOk,
             recv := if j.busOff || j.listenNow then j.recv else if 128 ≤ j.recv then 120 else j.recv - 1 }

/-- The channel receives: it is enabled, out of reset, not fenced, and has joined the bus (11 R279, R294). -/
def hears (s : State) (c : Chan) : Bool :=
  active s (.jx c) && (s.chan c).bus ≠ .stopped && (s.chan c).bus ≠ .recovery

/-- LATEERR (11 R284, Table 11.9). -/
def lateErr (s : State) (c : Chan) (late : Bool) : State := if late then evt s (.jx c) 7 else s

/-- The hub still holds the frame that it receives: an error signalled before it accepted the frame discards it (11 R290). -/
def holds (j : Jx) : Bool := j.rxOpen && (j.bus ≠ .errorSig || j.lateAcc)

/-- The received frame is accepted and leaves the channel: RXOK and REC, LATEERR with its late error (11 R284, R291). -/
def takeFrame (s : State) (c : Chan) : State :=
  lateErr ((acceptCount s c).modChan c fun j => { j with bus := .receiving, wasTx := false, rxOpen := false }) c
    (s.chan c).lateAcc

/-- The error line of a channel makes a rise whose reaction fences the channel (15 R391, R393, Tables 15.1 and 15.3). -/
def riseFences (s : State) (c : Chan) : Bool :=
  let k : Fin 21 := Fin.ofNat 21 (9 + c.val)
  let sev := effSev s k
  (!s.flt.src.getLsbD k.val || decide (s.flt.lsev[k].toNat < sev)) && (reactUnits (.jx c) sev).contains (.jx c)

/-- FRAME_HAND_OVER (R332–R341, R359–R362; 11 R284, R285, R297): the frame that the channel holds, with a CRC that matches
(11 R281, R282), is counted; frames with the identifiers 0, 1 and 3 are discarded with RSVID, a HELLO and every other frame
goes through the filter list (R337). A failing word whose reaction fences the channel does so before the CRC delimiter, so the
frame is never accepted (R337, R339, 15 Tables 15.4, 15.5; log 40). -/
def execFrameHandOver (c : Chan) (f : RxFrame) (s : State) : Out :=
  let h := heardFrame s c f
  if coreRuns s && hears s c && holds (s.chan c) && decide (f.data.length ≤ 64) && decide (f.crc = crc21 h.id f.data) then
    if h.id.toNat < 4 && h.id.toNat ≠ 2 then done (evt (takeFrame s c) (.jx c) 8)
    else
      let w := flmWalk s c f.badWords h.id (evalLk s c) 256 0
      let s1 := flmFound s c w.bad
      if !w.bad.isEmpty && riseFences s1 c then done s1
      else match w.hit with
        | some (k, w1) => done (handOver (takeFrame s1 c) c h (actionOf (w1.extractLsb' 18 11)) (some k))
        | none => done (handOver (takeFrame s1 c) c h (actionOf s1.mbr.defAct[c]) none)
  else .next s

/-! ### Entries become visible and age (13 R332, R344–R348) -/

/-- The oldest allocated entry of an instance that is not yet visible. -/
def rxOldestAlloc (m : Mvf) : Option RxEntry :=
  ((m.rx.filter fun e => e.state = .alloc).foldl (fun a e => rxArrive e a) []).head?

/-- The draining or filling bank can take one more entry (R348). -/
def bankRoom (m : Mvf) : Bool :=
  decide (((rxQueued m).filter fun e => e.bank = fillBank m).length < bankCap m)

/-- Events of an entry that became QUEUED (Table 13.6). -/
def rxNew (s : State) (i : Inst) (urg : Bool) : State :=
  let s1 := evt s (.mvf i) 8
  if urg then evt s1 (.mvf i) 9 else s1

/-- An entry becomes QUEUED: the chain drops its last entry beyond 32, a full filling bank loses the frame. -/
def entryQueue (s : State) (i : Inst) (e : RxEntry) : State :=
  let m := s.inst i
  if m.qorg && !bankRoom m then
    poolChanged (rxLose (s.setInst i (rxFree m fun x => x.arr = e.arr)) i)
  else
    let m1 := rxMap m (fun x => x.arr = e.arr) fun x =>
      { x with state := .queued, bank := if m.qorg then fillBank m else 0 }
    let m2 := bankSwap (chainTrim m1)
    let s1 := s.setInst i m2
    let s2 := if m2.rx.length < m1.rx.length then rxLose s1 i else s1
    let s3 := if m2.rx.any fun x => x.arr = e.arr then rxNew s2 i e.urg else s2
    poolChanged s3

/-- ENTRY_QUEUED (R332, R344, R346–R348). -/
def execEntryQueued (i : Inst) (s : State) : Out :=
  match rxOldestAlloc (s.inst i) with
  | none => .next s
  | some e => coreCmd (fun t => entryQueue t i e) s

/-- AGELIM in force: 0 acts as 1 (R345). -/
def ageCap (m : Mvf) : Nat := if m.ageLim = 0 then 1 else m.ageLim

/-- The entry that ages next: the first by arrival whose age has reached AGELIM. -/
def rxDue (m : Mvf) : Option RxEntry :=
  if m.qorg then none
  else (((rxQueued m).filter fun e => !e.aged && decide (ageCap m ≤ e.age)).foldl (fun a e => rxArrive e a) []).head?

/-- AGED (R345): the entry joins the end of the aged entries. -/
def execAged (i : Inst) (s : State) : Out :=
  match rxDue (s.inst i) with
  | none => .next s
  | some e => coreCmd (fun t => evt (nextStamp (t.modInst i fun m =>
      rxMap m (fun x => x.arr = e.arr) fun x => { x with aged := true, agedAt := t.stamp })) (.mvf i) 11) s

/-- The ages of the QUEUED entries of a Sorting chain at local lk 0 (R345). -/
def rxGrow (m : Mvf) : Mvf :=
  if m.qorg then m else rxMap m (fun e => e.state = .queued) fun e => { e with age := e.age + 1 }

/-! ### The RX window and its commands (13 R350–R352, R357, R358) -/

/-- A read of RXWIN0 with no current entry selects, from the head of the queue on, until an entry is good (R350, R361). -/
def winSelect (s : State) (i : Inst) (ecc : List SramRead) : State :=
  if rxOff s i || (rxCurrent (s.inst i)).isSome then s else winTake (rxCheck rxQueue ecc 1 0 s i) i

/-- RXWIN0_READ: a read of RXWIN0 alone; `ecc` is what the SRAM gives for each entry that it checks. With no entry the read
waits and nothing changes (R352). -/
def execRxwin0Read (i : Inst) (ecc : List SramRead) (s : State) : Out := pageCmd (.mvf i) (fun t => winSelect t i ecc) s

/-- RXWIN19_READ (R351). -/
def execRxwin19Read (i : Inst) (s : State) : Out := pageCmd (.mvf i) (fun t => winRelease t i) s

/-- RXCMD DROP (R351). -/
def execRxcmdDrop (i : Inst) (s : State) : Out := pageCmd (.mvf i) (fun t => winDrop t i) s

/-- RXCMD RESEND (R358). -/
def execRxcmdResend (i : Inst) (s : State) : Out := pageCmd (.mvf i) (fun t => rxResend t i) s

/-- RXACK (R357). -/
def execRxack (i : Inst) (upto : Half) (s : State) : Out := pageCmd (.mvf i) (fun t => rxAck t i upto) s

/-! ### Quotas and watermarks (13 R342, R362) -/

/-- A write of MBR_QUOTAn (R342). -/
def quotaWrite (s : State) (i : Inst) (val : Word) : State :=
  let mx := fld val 16 10
  let mn := fld val 0 10
  let mins := (allInsts.map fun m => if m = i then mn else s.mbr.qMin[m]).sum
  if mx < mn ∨ 512 < mins then evt s .mbr 10
  else { s with mbr := { s.mbr with qMin := s.mbr.qMin.set i.val mn i.isLt, qMax := s.mbr.qMax.set i.val mx i.isLt } }

/-- MBR_QUOTA_WRITE. -/
def execMbrQuotaWrite (i : Inst) (val : Word) (s : State) : Out := pageCmd .mbr (fun t => quotaWrite t i val) s

/-- A write of MBR_WMx (R362). -/
def wmWrite (s : State) (c : Chan) (val : Word) : State :=
  let hi := fld val 16 10
  let lo := fld val 0 10
  if hi ≠ 0 ∧ hi ≤ lo then evt s .mbr 11
  else flowEval { s with mbr := { s.mbr with wmHi := s.mbr.wmHi.set c.val hi c.isLt, wmLo := s.mbr.wmLo.set c.val lo c.isLt } } c

/-- MBR_WM_WRITE. -/
def execMbrWmWrite (c : Chan) (val : Word) (s : State) : Out := pageCmd .mbr (fun t => wmWrite t c val) s

end Sys2Proof.Machine
end

