-- ==== Sys2Proof/Machine/Tx.lean ====
section
/-! DEFINITION. The Message Bridge, transmit side: buffers, staging, selection, completion, cancellation, Mirror mode and
the transmit part of an instance reset (12). -/

namespace Sys2Proof.Machine

/-! ### Service of a channel and of an instance (12 R312, R320, R322) -/

/-- A channel in service (R322). -/
def inSvc (s : State) (c : Chan) : Bool :=
  active s (.jx c) && (s.chan c).bus ≠ .stopped && (s.chan c).bus ≠ .recovery && !(s.chan c).busOff

/-! ### Mirror pairs (12 R321, R322) -/

/-- The next value of NXT of channel `c` when buffer `b` reaches a final state (Table 12.4). -/
def moveNxt (m : Mvf) (k : Fin 6) : Mvf :=
  { m with nxt := m.nxt.set (bufChan k).val (next3 (bufNum k)) (bufChan k).isLt }

/-- A FULL copy whose sibling is final while its own channel is out of service is freed without a record (R322). -/
def mirDropOne (s : State) (i : Inst) (k : Fin 6) : State :=
  let m := s.inst i
  let b := m.buf k
  let o := m.buf (sibling k)
  if s.mbr.mirNow && b.state = .full && o.state = .done && !inSvc s (bufChan k) then
    let m1 := m.setBuf (sibling k) { o with att := satAdd 255 o.att b.att, doneAt := s.stamp }
    let m2 := moveNxt (m1.setBuf k {}) k
    let s1 := nextStamp (s.setInst i m2)
    evt (evt { s1 with mbr := { s1.mbr with mirdrop := inc16 s1.mbr.mirdrop } } .mbr 2) (.mvf i) 2
  else s

/-- The rule applied to every copy of every pair. -/
def mirSettle (s : State) : State :=
  allInsts.foldl (fun a i => allSix.foldl (fun x k => mirDropOne x i k) a) s

/-! ### Final status and the completion queue (12 R314–R317) -/

/-- A buffer, or one copy of a pair, becomes DONE with its status. -/
def finalise (s : State) (i : Inst) (k : Fin 6) (st : TxStatus) : State :=
  let m := (s.inst i).modBuf k fun b => { b with state := .done, canreq := false, status := some st, doneAt := s.stamp }
  nextStamp (s.setInst i (moveNxt m k))

/-- A buffer, or one copy of a pair, reaches a final status. -/
def finish (s : State) (i : Inst) (k : Fin 6) (st : TxStatus) : State := mirSettle (finalise s i k st)

/-- The attempt leaves the buffer FULL. -/
def backToFull (s : State) (i : Inst) (k : Fin 6) : State :=
  mirSettle (s.modInst i fun m => m.modBuf k fun b => { b with state := .full })

/-- The outcome of an ORPHAN: recorded for its channel, the buffer becomes FREE (R323). -/
def orphanEnd (s : State) (i : Inst) (k : Fin 6) (sent : Bool) : State :=
  let b := (s.inst i).buf k
  let c := bufChan k
  let r : WireRec := ⟨true, sent, i, bufNum k, b.id⟩
  let s1 := s.modInst i fun m => m.setBuf k {}
  evt (evt { s1 with mbr := { s1.mbr with wireRec := s1.mbr.wireRec.set c.val r c.isLt } } .mbr 1) (.mvf i) 2

/-- The outcome of an attempt for its buffer (Table 12.5, R315, R318). `fatal` is the final status the outcome gives
the buffer by itself, if any; `sent` says that the frame was sent. -/
def attemptEnd (s : State) (i : Inst) (k : Fin 6) (fatal : Option TxStatus) : State :=
  let b := (s.inst i).buf k
  if b.state = .orphan then orphanEnd s i k (fatal == some .sent)
  else if b.state = .wire then
    match fatal with
    | some .sent => finish s i k .sent
    | some st => if b.canreq then finish s i k .cancelled else finish s i k st
    | none => if b.canreq then finish s i k .cancelled else backToFull s i k
  else s

/-- A transmit error of a buffer: its own count, and ERRLIM read now (R315). -/
def attemptError (s : State) (i : Inst) (k : Fin 6) : State :=
  let s1 := if ((s.inst i).buf k).state = .orphan then s
    else s.modInst i fun m => m.modBuf k fun b => { b with errs := b.errs + 1 }
  let m := s1.inst i
  if m.errlim ≠ 0 && m.errlim ≤ (m.buf k).errs then attemptEnd s1 i k (some .errlimit) else attemptEnd s1 i k none

/-- The status of a pair from the statuses of its copies (R322). -/
def pairStatus (a b : Option TxStatus) : TxStatus :=
  let has (st : TxStatus) : Bool := a == some st || b == some st
  if has .sent then .sent else if has .cancelled then .cancelled else if has .damaged then .damaged else .errlimit

/-- The completion record that a buffer ready to leave DONE makes (Table 12.6); in Mirror mode that of its pair. -/
def recordOf (s : State) (i : Inst) (k : Fin 6) (byrst : Bool) : CRec :=
  let m := s.inst i
  let b := m.buf k
  if s.mbr.mirNow then
    let a := m.buf (bufIx 0 (bufNum k))
    let c := m.buf (bufIx 1 (bufNum k))
    let ctag := if a.state = .free then c.ctag else a.ctag
    if byrst then ⟨.cancelled, true, bufNum k, 0, ctag, satAdd 255 a.att c.att, false, false⟩
    else ⟨pairStatus a.status c.status, false, bufNum k, 0, ctag, satAdd 255 a.att c.att,
      a.status == some .sent, c.status == some .sent⟩
  else if byrst then ⟨.cancelled, true, bufNum k, bufChan k, b.ctag, b.att, false, false⟩
  else ⟨b.status.getD .cancelled, false, bufNum k, bufChan k, b.ctag, b.att,
    b.status == some .sent && bufChan k = 0, b.status == some .sent && bufChan k = 1⟩

/-- A buffer that may enter the completion queue: DONE, and in Mirror mode its pair is final (R316, R322). -/
def leavable (s : State) (i : Inst) (k : Fin 6) : Bool :=
  let m := s.inst i
  (m.buf k).state = .done &&
    (!s.mbr.mirNow || (m.buf (sibling k)).state = .done || (m.buf (sibling k)).state = .free)

/-- Order in which a buffer's final status, or its pair's, was reached. -/
def doneOrder (s : State) (i : Inst) (k : Fin 6) : Nat :=
  let m := s.inst i
  if s.mbr.mirNow then max (m.buf k).doneAt (m.buf (sibling k)).doneAt else (m.buf k).doneAt

/-- The first of a list by a strict order, the earlier element on a tie. -/
def firstBy {α : Type} (lt : α → α → Bool) : List α → Option α
  | [] => none
  | a :: r =>
    match firstBy lt r with
    | none => some a
    | some b => if lt b a then some b else some a

/-- The buffer that enters the completion queue next. -/
def nextDone (s : State) (i : Inst) : Option (Fin 6) :=
  firstBy (fun a b => decide (doneOrder s i a < doneOrder s i b)) (allSix.filter (leavable s i))

/-- The buffer leaves DONE and becomes FREE; its record enters the queue (R316). -/
def enterQueue (s : State) (i : Inst) (k : Fin 6) : State :=
  let r := recordOf s i k false
  let s1 := s.modInst i fun m =>
    let m1 := m.setBuf k {}
    let m2 := if s.mbr.mirNow then m1.setBuf (sibling k) {} else m1
    { m2 with cq := m2.cq ++ [r], sentCnt := if r.status = .sent then inc16 m2.sentCnt else m2.sentCnt }
  evt (evt s1 (.mvf i) 0) (.mvf i) 2

/-- COMPLETION_QUEUE_ENTRY (R316). -/
def execCompletionQueueEntry (i : Inst) (s : State) : Out :=
  match nextDone s i with
  | none => .next s
  | some k => if (s.inst i).cq.length < 8 then coreCmd (fun t => enterQueue t i k) s else .next s

/-- A read of MVFn_TXCOMP removes the record it returns (R317). -/
def txcompPop (s : State) (i : Inst) : State := s.modInst i fun m => { m with cq := m.cq.drop 1 }

/-- TXCOMP_READ. -/
def execTxcompRead (i : Inst) (s : State) : Out := pageCmd (.mvf i) (fun t => txcompPop t i) s

/-- The code of STATUS. -/
def statusCode : TxStatus → Nat
  | .sent => 1 | .cancelled => 2 | .errlimit => 3 | .damaged => 4

/-- A completion record as TXCOMP shows it (Table 12.6). -/
def crecWord (r : CRec) : Word :=
  pack [(31, 1), (28, statusCode r.status), (27, b2n r.byrst), (25, r.buf.val), (24, r.chan.val), (16, r.ctag.toNat),
    (8, r.att), (1, b2n r.sentB), (0, b2n r.sentA)]

/-! ### Submitting (12 R306, R307) -/

/-- A refusal: TXREJ, the reason and the tag (R307, R310). -/
def txRefuse (s : State) (i : Inst) (bulk : Bool) (reason : BitVec 4) (ctag : Byte) : State :=
  evt (s.modInst i fun m =>
    { m with rejTag := ctag, rejSrc := bulk, rejReason := reason, rejCnt := inc16 m.rejCnt }) (.mvf i) 1

/-- Fill one buffer: it becomes FULL with fresh counts (R306, R315), and FILL moves on (R311). -/
def fillOne (s : State) (m : Mvf) (k : Fin 6) (id : BitVec 24) (data : List Byte) (ctag : Byte) : Mvf :=
  let m1 := m.setBuf k { state := .full, id := id, data := data, ctag := ctag, fullAt := s.stamp }
  { m1 with fill := m1.fill.set (bufChan k).val (next3 (bufNum k)) (bufChan k).isLt }

/-- Fill a buffer, or in Mirror mode the pair (R321). -/
def fillBufs (s : State) (i : Inst) (k : Fin 6) (id : BitVec 24) (data : List Byte) (ctag : Byte) : State :=
  let m1 := fillOne s (s.inst i) k id data ctag
  let m2 := if s.mbr.mirNow then fillOne s m1 (sibling k) id data ctag else m1
  nextStamp (s.setInst i m2)

/-- The data bytes 0 to LEN − 1 of TXDATA. -/
def txBytes (m : Mvf) : List Byte := (m.txData.toList.flatMap wordBytes).take m.hdrLen.toNat

/-- The named buffer is not FREE (reason 3). BUF 3 names no buffer. -/
def submitBusy (s : State) (i : Inst) (c : Chan) (buf : BitVec 2) : Bool :=
  match bufOf buf with
  | none => false
  | some b => !bufFree s i (bufIx c b)

/-- The instance or the bridge is not in service (reason 4; a Block reset of MBR counts as such, log 20). -/
def submitOff (s : State) (i : Inst) : Bool :=
  !(s.hdr (.mvf i)).en || siding s (.mvf i) || !(s.hdr .mbr).en || (s.hdr .mbr).inrst

/-- A SUBMIT (R306, R307). Where several reasons hold, the lowest number is recorded (log 20). -/
def submit (s : State) (i : Inst) (c : Chan) (buf : BitVec 2) (ctag : Byte) : State :=
  let m := s.inst i
  if m.hdrId.toNat < 4 then txRefuse s i false 1 ctag
  else if 64 < m.hdrLen.toNat then txRefuse s i false 2 ctag
  else if submitBusy s i c buf then txRefuse s i false 3 ctag
  else if submitOff s i then txRefuse s i false 4 ctag
  else match bufOf buf with
    | none => txRefuse s i false 5 ctag
    | some b => fillBufs s i (bufIx c b) m.hdrId (txBytes m) ctag

/-- SUBMIT. -/
def execSubmit (i : Inst) (c : Chan) (buf : BitVec 2) (ctag : Byte) (s : State) : Out :=
  pageCmd (.mvf i) (fun t => submit t i c buf ctag) s

/-! ### Cancellation (12 R318) -/

/-- Cancel one buffer or copy. -/
def cancelOne (s : State) (i : Inst) (k : Fin 6) : State :=
  match ((s.inst i).buf k).state with
  | .full => finalise s i k .cancelled
  | .wire => s.modInst i fun m => m.modBuf k fun b => { b with canreq := true }
  | .free | .done | .orphan => s

/-- CANCEL acts on the named buffer, in Mirror mode on the pair, both copies at once; BUF 3 names no buffer (log 20). -/
def cancel (s : State) (i : Inst) (c : Chan) (buf : BitVec 2) : State :=
  match bufOf buf with
  | none => txRefuse s i false 5 0
  | some b =>
    let s1 := cancelOne s i (bufIx c b)
    mirSettle (if s.mbr.mirNow then cancelOne s1 i (sibling (bufIx c b)) else s1)

/-- CANCEL. -/
def execCancel (i : Inst) (c : Chan) (buf : BitVec 2) (s : State) : Out :=
  pageCmd (.mvf i) (fun t => cancel t i c buf) s

/-- CANCEL_ALL acts on all six buffers. -/
def cancelAll (s : State) (i : Inst) : State := mirSettle (allSix.foldl (fun a k => cancelOne a i k) s)

/-- CANCEL_ALL. -/
def execCancelAll (i : Inst) (s : State) : Out := pageCmd (.mvf i) (fun t => cancelAll t i) s

/-- FLUSH discards the staged records and counts them. -/
def flush (s : State) (i : Inst) : State :=
  s.modInst i fun m => { m with staging := [], flushed := satAdd 255 m.flushed m.staging.length }

/-- FLUSH. -/
def execFlush (i : Inst) (s : State) : Out := pageCmd (.mvf i) (fun t => flush t i) s

/-! ### Staging (12 R308–R311) -/

/-- Bytes of a record (R308). -/
def recBytes (r : TxRec) : Nat := 8 + 4 * ((r.data.length + 3) / 4)

/-- Staging bytes in use. -/
def stagedBytes (m : Mvf) : Nat := (m.staging.map recBytes).sum

/-- What parsing a payload yields, in order: a record taken, or a refusal with its reason and its tag; a refused record
cut off before its tag byte has none. -/
inductive Parsed where
  | take (r : TxRec)
  | refuse (reason : BitVec 4) (ctag : Option Byte)

/-- Parse the records of a payload (R308, R310). The fuel bounds the number of records. -/
def parseRecs : Nat → List Byte → List Parsed
  | 0, _ => []
  | n + 1, l =>
    if l.isEmpty then []
    else
      let tag : Option Byte := l[5]?
      let w0 := wordAt l 0
      let w1 := wordAt l 4
      let len := fld w0 24 7
      let size := 8 + 4 * ((len + 3) / 4)
      if l.length < 8 then [.refuse 6 tag]
      else if 64 < len ∨ l.length < size then [.refuse 6 tag]
      else
        let rest := parseRecs n (l.drop size)
        if bitAt w0 31 || fld w1 3 5 ≠ 0 || fld w1 16 16 ≠ 0 then .refuse 6 tag :: rest
        else if fld w0 0 24 < 4 then .refuse 1 tag :: rest
        else
          .take ⟨BitVec.ofNat 24 (fld w0 0 24), (l.drop 8).take len, if bitAt w1 0 then 1 else 0,
            BitVec.ofNat 2 (fld w1 1 2), BitVec.ofNat 8 (fld w1 8 8)⟩ :: rest

/-- Stage what parsing yields. The tag of a record cut off before its tag byte is a free value (log 4). -/
def stageOne (s : State) (i : Inst) : Parsed → State
  | .take r => s.modInst i fun m => { m with staging := m.staging ++ [r] }
  | .refuse reason (some t) => txRefuse s i true reason t
  | .refuse reason none => txRefuse (nextFree s) i true reason ((Config.freeWord s.free).setWidth 8)

/-- An accepted payload enters staging (R309, R310). -/
def stageAll (s : State) (i : Inst) (p : List Byte) : State :=
  (parseRecs (p.length / 8 + 1) p).foldl (fun a x => stageOne a i x) s

/-- The head record leaves staging. -/
def stageDrop (s : State) (i : Inst) : State := s.modInst i fun m => { m with staging := m.staging.drop 1 }

/-- The head record `r` as the SRAM gives it: a damaged one is discarded and refused with reason 7 (Table 12.10), else it
moves into a buffer that it may take. -/
def stagedMove (s : State) (i : Inst) (r : TxRec) : SramRead → State
  | none => sramUnc (txRefuse (raise (stageDrop s i) (.mvf i) 0) i true 7 r.ctag)
  | some k => match stagedTarget s i r with
    | none => s
    | some b => fillBufs (stageDrop (sramCorr s k) i) i b r.id r.data r.ctag

/-- STAGED_RECORD_MOVE (R311). The record waits while the instance or the bridge gives no service (R328, R329), or MBR is held
(14 R369). -/
def execStagedRecordMove (i : Inst) (ecc : SramRead) (s : State) : Out :=
  match (s.inst i).staging with
  | [] => .next s
  | r :: _ => if !instOn s i || held s 14 then .next s else coreCmd (fun t => stagedMove t i r ecc) s

/-! ### Selection (12 R312, Table 12.4) -/

/-- Order of two frames: the lower ID, then the buffer that became FULL first (Table 12.4). -/
def txBefore (a b : TxBuf) : Bool :=
  decide (a.id.toNat < b.id.toNat) || (decide (a.id = b.id) && decide (a.fullAt < b.fullAt))

/-- The candidate of one instance on a channel. -/
def candOf (s : State) (c : Chan) (i : Inst) : Option (Fin 6) :=
  let m := s.inst i
  let isFull (k : Fin 6) : Bool := (m.buf k).state = .full
  if !instOn s i then none
  else if ringOrder s i c then
    let n := m.nxt[c]
    ([n, next3 n, next3 (next3 n)].map (bufIx c)).find? isFull
  else firstBy (fun j k => txBefore (m.buf j) (m.buf k)) ((allBufs.map (bufIx c)).filter isFull)

/-- The candidate that the channel offers: ties go to the lower instance number. -/
def candidate (s : State) (c : Chan) : Option (Inst × Fin 6) :=
  let cands := allInsts.filterMap fun i => (candOf s c i).map fun k => (i, k)
  firstBy (fun p q => txBefore ((s.inst p.1).buf p.2) ((s.inst q.1).buf q.2)) cands

/-! ### The transmit side of a reset (12 R323, R324) -/

/-- Whether a buffer makes a CANCELLED, BYRST record: FULL and DONE buffers; in Mirror mode each pair with such a copy
makes one, counted at its copy on channel A. -/
def cancelsAt (s : State) (i : Inst) (k : Fin 6) : Bool :=
  let held (b : TxBuf) : Bool := b.state = .full || b.state = .done
  if s.mbr.mirNow then
    decide (k.val < 3) && (held ((s.inst i).buf k) || held ((s.inst i).buf (sibling k)))
  else held ((s.inst i).buf k)

/-- A buffer after lk 0 of its instance's reset: a WIRE buffer becomes ORPHAN, an ORPHAN stays, others are empty. -/
def bufCut (b : TxBuf) : TxBuf :=
  if b.state = .wire ∨ b.state = .orphan then { b with state := .orphan, canreq := false } else {}

/-- Lk 0 of a reset of instance `i`: held records, orphans, staging and completion queue emptied. -/
def txCut (s : State) (i : Inst) : State :=
  let recs := (allSix.filter (cancelsAt s i)).map fun k => recordOf s i k true
  s.modInst i fun m =>
    { m with bufs := m.bufs.mapIdx fun _ b => bufCut b, held := m.held ++ recs, staging := [], cq := [] }

/-- Lk 255: the queue holds the held records (R324), behind those that a reset which overlapped has put there. -/
def txOpen (s : State) (i : Inst) : State :=
  let s1 := s.modInst i fun m => { m with cq := m.cq ++ m.held, held := [] }
  if (s.inst i).held.isEmpty then s1 else evt s1 (.mvf i) 0

end Sys2Proof.Machine
end

