-- ==== Sys2Proof/Machine/Jexast.lean ====
section
/-! DEFINITION. The Jexast channels: bus, selection and attempts, errors and confinement, line recovery, census (11, with
12 §12.5–12.8). -/

namespace Sys2Proof.Machine

/-! ### Census bookkeeping (11 R300, R301) -/

/-- The census ends: CENRUN clears and CENDONE is raised. -/
def cenExit (s : State) (c : Chan) (f : Jx → Jx) : State :=
  evt (s.modChan c fun j => { f j with cenRun := false, cenPend := false, cenLook := false }) (.jx c) 4

/-- A running census ends with ABORT. -/
def cenAbort (s : State) (c : Chan) : State :=
  if (s.chan c).cenRun then cenExit s c fun j => { j with cenAbort := true } else s

/-- A census starts (R300). -/
def cenBegin (s : State) (c : Chan) : State :=
  s.modChan c fun j =>
    { j with cnum := j.cnum + 1, cenTable := [], cenDone := false, cenIncomplete := false, cenOvf := false,
             cenAbort := false, cenRun := true, cenTries := 0, cenLast := .census, cenPend := true, cenLook := false }

/-- Why a CENSTART is ignored (R301); LISTEN counts whether written or in force (log 21). -/
def cenRefused (s : State) (c : Chan) : Bool :=
  let j := s.chan c
  j.cenRun || !active s (.jx c) || j.bus = .stopped || j.bus = .recovery || j.busOff || j.listen || j.listenNow

/-! ### Errors (11 R289, Tables 11.3, 11.4, 11.10) -/

def kindCode : ErrKind → BitVec 3
  | .bit => 1 | .stuff => 2 | .crc => 3 | .form => 4 | .ack => 5

/-- LASTERR and the counter of the kind. -/
def noteErr (s : State) (c : Chan) (e : ErrAt) (tx : Bool) : State :=
  s.modChan c fun j =>
    { j with bus := .errorSig, errKind := kindCode e.kind, errRole := tx, errField := e.field, errBit := e.bit,
             bitCnt := if e.kind = .bit then inc16 j.bitCnt else j.bitCnt,
             stuffCnt := if e.kind = .stuff then inc16 j.stuffCnt else j.stuffCnt,
             crcCnt := if e.kind = .crc then inc16 j.crcCnt else j.crcCnt,
             formCnt := if e.kind = .form then inc16 j.formCnt else j.formCnt,
             ackCnt := if e.kind = .ack then inc16 j.ackCnt else j.ackCnt }

/-- Entry to bus-off (R292, R293, R301). -/
def enterBusOff (s : State) (c : Chan) : State :=
  let s1 := s.modChan c fun j =>
    { j with tec := 256, busOff := true, counting := j.autoRcv, runs := 0, recs := 0, boCnt := inc16 j.boCnt }
  mirSettle (cenAbort (raise s1 (.jx c) 2) c)

/-- TEC + 8, and bus-off when TEC passes 255. The counters hold in LISTEN and while bus-off. -/
def tecUp (s : State) (c : Chan) : State :=
  let j := s.chan c
  if j.busOff || j.listenNow then s
  else if 255 < j.tec + 8 then enterBusOff s c
  else confine s c fun j => { j with tec := j.tec + 8 }

/-- REC + 1, saturating at 255. -/
def recUp (s : State) (c : Chan) : State :=
  confine s c fun j => { j with recv := if j.busOff || j.listenNow then j.recv else satInc 255 j.recv }

/-- The error stands behind the arbitration field, which for the hub's own frames is the ID (Table 11.10 FIELD; R286). -/
def pastId (e : ErrAt) : Bool := decide (2 ≤ e.field.toNat)

/-- An error of the hub's frame on the wire. Before the end of the arbitration field the hub is not yet the transmitter, and
the error counts as a receiver's (R279, R289). `silent`: an error-passive transmitter's ACK error with no dominant bit during
its passive flag leaves TEC unchanged (Table 11.4). -/
def txErr (s : State) (c : Chan) (e : ErrAt) (silent : Bool) : State :=
  let s1 := (noteErr s c e (pastId e)).modChan c fun j => { j with wasTx := pastId e }
  if !pastId e then recUp s1 c
  else if e.kind = .ack && passive (s.chan c) && silent then s1 else tecUp s1 c

/-! ### The strobe and line recovery (11 R294–R296, 12 R320) -/

/-- The attempt in progress is abandoned: SENT if the hub had sampled the ACK slot dominant, which the command does not
say (a free value), otherwise FULL (Table 12.5; log 4). -/
def abandon (s : State) (c : Chan) : State :=
  match (s.chan c).wire with
  | .none => s
  | .census => s.modChan c fun j => { j with wire := .none }
  | .buf i b =>
    let s1 := nextFree (s.modChan c fun j => { j with wire := .none })
    attemptEnd s1 i (bufIx c b) (if Config.freeBit s.free then some .sent else none)

/-- The strobe rests high at the beginning of a half-period of the DIV in force (04 R87; log 41). -/
def strobeRest (s : State) (c : Chan) : State :=
  { s with clk := { s.clk with strobe := s.clk.strobe.set c.val ⟨true, 0, s.clk.divNow[c] / 2⟩ c.isLt } }

/-- No frame is on the wire any more, and none is received. -/
def wireClear (j : Jx) : Jx := { j with wasTx := false, waitBits := 0, lateAcc := false, rxOpen := false, rcvWait := false }

/-- The channel stops: disabled, reset or fenced. -/
def stopChan (s : State) (c : Chan) : State :=
  let s1 := abandon (cenAbort s c) c
  strobeRest (mirSettle (s1.modChan c fun j => { wireClear j with bus := .stopped })) c

/-- Line recovery starts (R294). The strobe is high for DIV/2 lk, and its first edge is falling (R295, 04 R87; log 41). -/
def startRecovery (s : State) (c : Chan) : State :=
  let s1 := abandon s c
  strobeRest (mirSettle (confine s1 c fun j =>
    { wireClear j with bus := .recovery, tec := 0, recv := 0, busOff := false, counting := false, runs := 0, recs := 0 })) c

/-- A fence puts the channel in Siding with the strobe stopped (R296, 02 R39). -/
def fenceChan (s : State) (c : Chan) : State := stopChan (s.modHdr (.jx c) fun h => { h with siding := true }) c

/-- What takes effect at a bus idle: DIV and LISTEN (04 R88, Table 11.10). An error-passive transmitter of the frame before
waits for 8 idle bits (R279). -/
def idleApply (s : State) (c : Chan) : State :=
  let s1 := s.modChan c fun j =>
    { j with bus := .idle, listenNow := j.listen, wasTx := false, waitBits := if j.wasTx && passive j then 8 else 0,
             rxOpen := false }
  { s1 with clk := { s1.clk with divNow := s1.clk.divNow.set c.val s1.clk.div[c] c.isLt } }

/-- BUS_IDLE (R279). -/
def execBusIdle (c : Chan) (s : State) : Out :=
  let j := s.chan c
  if hears s c && j.wire = .none then coreCmd (fun t => idleApply t c) s else .next s

/-- The record of a line recovery. -/
def rcvEnd (s : State) (c : Chan) (result : BitVec 2) (strobes : Nat) : State :=
  s.modChan c fun j => { j with rcvResult := result, rcvStrobes := strobes, firstRcv := false }

/-- IDLE: line recovery ends with the bus idle (R295); the first one after bring-up starts the census that CENAUTO
asks for (R301). -/
def execIdle (c : Chan) (strobes : Nat) (s : State) : Out :=
  let j := s.chan c
  if j.bus = .recovery && !held s (chanBit c) && decide (11 ≤ strobes) && decide (strobes ≤ 1024) then
    coreCmd (fun t =>
      let t1 := evt (idleApply (rcvEnd t c 1 strobes) c) (.jx c) 0
      if j.firstRcv && j.cenAuto && !cenRefused t1 c then cenBegin t1 c else t1) s
  else .next s

/-- STUCK (R295, R296). -/
def execStuck (c : Chan) (strobes : Nat) (s : State) : Out :=
  if (s.chan c).bus = .recovery && !held s (chanBit c) && decide (160 ≤ strobes) && decide (strobes ≤ 1024) then
    coreCmd (fun t => raise (fenceChan (rcvEnd t c 2 strobes) c) (.jx c) 0) s
  else .next s

/-- NOIDLE (R295, R296). -/
def execNoidle (c : Chan) (s : State) : Out :=
  if (s.chan c).bus = .recovery && !held s (chanBit c) then coreCmd (fun t => raise (fenceChan (rcvEnd t c 3 1024) c) (.jx c) 1) s else .next s

/-! ### Selection and attempts -/

/-- `now` at the next rising strobe edge, which samples the bit that begins (R274). -/
def nextRise (s : State) (c : Chan) : Nat :=
  let b := s.clk.strobe[c]
  s.now + (b.half - b.ran) + (if b.high then b.half else 0)

/-- A start-of-frame bit begins on an idle bus: its sample will give the frame's timestamp (04 R94). -/
def frameBegins (s : State) (c : Chan) : State :=
  let t := nextRise s c
  s.modChan c fun j => { wireClear j with sofAt := t, stamp := none }

/-- What the channel puts on the wire: a pending census frame ahead of every buffer (R288), else the candidate. -/
def selectOn (s : State) (c : Chan) : State :=
  if (s.chan c).cenPend then
    s.modChan c fun j => { j with bus := .transmitting, wire := .census, cenPend := false }
  else match candidate s c with
    | none => s
    | some (i, k) =>
      (s.modInst i fun m => m.modBuf k fun b => { b with state := .wire, att := satInc 255 b.att }).modChan c fun j =>
        { j with bus := .transmitting, wire := .buf i (bufNum k) }

/-- The hub may start a frame: not in LISTEN, while bus-off, out of service (R320), or while an error-passive transmitter
waits (R279). -/
def maySelect (s : State) (c : Chan) : Bool :=
  inSvc s c && !(s.chan c).listenNow && decide ((s.chan c).waitBits = 0)

/-- A bit in which a start-of-frame bit may be sent begins. The hub sends that of its frame; where it has none, the bit that a
node begins, with the identifier `sof`, starts a frame that the hub receives (R279). -/
def selectStep (s : State) (c : Chan) (sof : Option (BitVec 24)) : State :=
  let s1 := if maySelect s c then selectOn s c else s
  if (s1.chan c).wire ≠ .none then frameBegins s1 c
  else match sof with
    | none => s1
    | some id => (frameBegins s1 c).modChan c fun j => { j with bus := .receiving, rxId := id, rxOpen := true }

/-- SELECTION (12 R312), at a falling strobe edge with the bus idle; a held channel has none (14 R369). -/
def execSelection (c : Chan) (sof : Option (BitVec 24)) (s : State) : Out :=
  if hears s c && (s.chan c).bus = .idle && !held s (chanBit c) then coreCmd (fun t => selectStep t c sof) s else .next s

/-- A frame was sent (R283): TXOK, TEC − 1. -/
def sentCount (s : State) (c : Chan) : State :=
  confine s c fun j => { j with wire := .none, wasTx := true, txOk := inc16 j.txOk, tec := if j.busOff || j.listenNow then j.tec else j.tec - 1 }

/-- Arbitration was lost to the identifier `id`: the hub receives the rest of that frame (R286). -/
def lostCount (s : State) (c : Chan) (id : BitVec 24) : State :=
  s.modChan c fun j => { j with wire := .none, bus := .receiving, rxId := id, rxOpen := true, arbLost := inc16 j.arbLost }

/-- The wire is given up after an error. -/
def wireOff (s : State) (c : Chan) : State := s.modChan c fun j => { j with wire := .none }

/-- The census frame competes again while the census runs (R288, R300). -/
def cenAgain (s : State) (c : Chan) : State := s.modChan c fun j => { j with cenPend := j.cenRun }

/-- Outcome of a buffer's attempt (Table 12.5). A TX buffer is a buffer register, no word of the SRAM, so DBG counts no
error of it (01 R30; log 38). -/
def bufOutcome (s : State) (c : Chan) (i : Inst) (k : Fin 6) : TxOutcome → State
  | .sent => attemptEnd (sentCount s c) i k (some .sent)
  | .arbLost id => attemptEnd (lostCount s c id) i k none
  | .error e silent => attemptError (txErr (wireOff s c) c e silent) i k
  | .damaged =>
    let own := !(((s.inst i).buf k).state = .orphan)
    let s1 := (wireOff s c).modChan c fun j => { j with bus := .errorSig, wasTx := true }
    let s2 := if own then raise s1 (.mvf i) 0 else s1
    attemptEnd (tecUp s2 c) i k (some .damaged)

/-- Outcome of a census frame's attempt (R300). A census frame is in no buffer, so it cannot be damaged. -/
def cenOutcome (s : State) (c : Chan) : TxOutcome → State
  | .sent => (sentCount s c).modChan c fun j => { j with cenLook := j.cenRun }
  | .arbLost id => cenAgain (lostCount s c id) c
  | .error e silent => cenAgain (txErr (wireOff s c) c e silent) c
  | .damaged => s

/-- ATTEMPT_OUTCOME (12 R314). -/
def execAttemptOutcome (c : Chan) (o : TxOutcome) (s : State) : Out :=
  match (s.chan c).wire with
  | .none => .next s
  | .census => coreCmd (fun t => cenOutcome t c o) s
  | .buf i b => coreCmd (fun t => bufOutcome t c i (bufIx c b) o) s

/-- A late error: a form error in the ACK delimiter or in EOF of a frame the hub had accepted (R284). -/
def isLate (j : Jx) (e : ErrAt) : Bool :=
  e.kind = .form && (e.field = 7 || e.field = 8) && j.rxOpen && j.bus ≠ .errorSig && !j.wasTx

/-- A frame that the hub had not accepted is discarded (R290). The filter engine has looked at it where the error stands behind
its ID, and the failing words that it met are recorded (13 R337, R339; log 40). -/
def discardFrame (s : State) (c : Chan) (e : ErrAt) (bad : List (Fin 512)) : State :=
  let j := s.chan c
  if !holds j || j.lateAcc then s
  else
    let s1 := if pastId e then flmFound s c (flmWalk s c bad j.rxId (evalLk s c) 256 0).bad else s
    s1.modChan c fun x => { x with rxOpen := false }

/-- An error detected with no frame of the hub on the wire (R289): as the transmitter of the frame whose intermission
runs, else as a receiver. A late error comes after the acceptance, which counts first. -/
def rxErr (s : State) (c : Chan) (e : ErrAt) (bad : List (Fin 512)) : State :=
  let j := s.chan c
  if j.wasTx then tecUp (noteErr s c e true) c
  else
    let s1 := if isLate j e then (acceptCount s c).modChan c fun x => { x with lateAcc := true } else discardFrame s c e bad
    recUp (noteErr s1 c e false) c

/-- ERROR_DETECTED: a receiver detects stuff, CRC and form errors only (Table 11.3); `bad` are the filter words whose parity
the engine found failing. -/
def execErrorDetected (c : Chan) (e : ErrAt) (bad : List (Fin 512)) (s : State) : Out :=
  if hears s c && (s.chan c).wire = .none && e.kind ≠ .bit && e.kind ≠ .ack then coreCmd (fun t => rxErr t c e bad) s
  else .next s

/-! ### Bus-off recovery (11 R293) -/

/-- RECOVER. -/
def execRecover (c : Chan) (s : State) : Out :=
  pageCmd (.jx c) (fun t => t.modChan c fun j =>
    if j.busOff && !j.counting then { j with counting := true, runs := 0, recs := 0 } else j) s

/-- BUS_OFF_RECOVERY_COMPLETE: after 128 runs. -/
def execBusOffRecoveryComplete (c : Chan) (s : State) : Out :=
  let j := s.chan c
  if hears s c && j.busOff && j.counting && decide (128 ≤ j.runs) then
    coreCmd (fun t => evt (t.modChan c fun j =>
      { j with busOff := false, counting := false, runs := 128, tec := 0, recv := 0 }) (.jx c) 3) s
  else .next s

/-! ### Census commands and frames (11 R298–R301) -/

/-- CENSTART. -/
def execCenstart (c : Chan) (s : State) : Out :=
  pageCmd (.jx c) (fun t => if cenRefused t c then evt t (.jx c) 6 else cenBegin t c) s

/-- CENSTOP. -/
def execCenstop (c : Chan) (s : State) : Out := pageCmd (.jx c) (fun t => cenAbort t c) s

/-- A census response that was accepted, or that ended in an error (R300). -/
def cenResponse (s : State) (c : Chan) : Option (BitVec 48 × Half) → State
  | some (uid, info) =>
    let s1 := takeFrame s c
    if 32 ≤ (s.chan c).cenTable.length then
      cenExit s1 c fun j => { j with cenOvf := true, cenIncomplete := true, cenDone := true }
    else s1.modChan c fun j =>
      { j with cenTable := j.cenTable ++ [⟨uid, info⟩], cenTries := 0, cenLast := .mark uid, cenPend := true,
               cenLook := false }
  | none =>
    let j := s.chan c
    if j.cenRetry < j.cenTries + 1 then
      cenExit s c fun j => { j with cenIncomplete := true, cenTries := j.cenTries + 1, cenAbort := true }
    else s.modChan c fun j =>
      { j with cenIncomplete := true, cenTries := j.cenTries + 1, cenPend := true, cenLook := false }

/-- CENSUS_RESPONSE: a response that is accepted is a frame 0x00_0001 that the channel holds. -/
def execCensusResponse (c : Chan) (r : Option (BitVec 48 × Half)) (s : State) : Out :=
  let j := s.chan c
  if hears s c && j.cenRun && j.cenLook && (r.isNone || (holds j && j.rxId = 1)) then coreCmd (fun t => cenResponse t c r) s
  else .next s

/-- CENDONE. -/
def execCendone (c : Chan) (s : State) : Out :=
  let j := s.chan c
  if hears s c && j.cenRun && j.cenLook then
    coreCmd (fun t => cenExit t c fun j => { j with cenDone := true }) s
  else .next s

/-- HELLO: the census engine's part of an accepted HELLO (R298). -/
def execHello (c : Chan) (len : Nat) (uid : BitVec 48) (info : Half) (s : State) : Out :=
  if hears s c && ((s.chan c).bus ≠ .errorSig || (s.chan c).lateAcc) then
    if len = 8 then
      coreCmd (fun t => evt (t.modChan c fun j =>
        { j with helloUid := uid, helloInfo := info, cenIncomplete := j.cenIncomplete || j.cenRun }) (.jx c) 5) s
    else coreCmd (fun t => evt t (.jx c) 8) s
  else .next s

end Sys2Proof.Machine
end

