-- ==== Sys2Proof/Machine/Pins.lean ====
section
/-! DEFINITION. The static pin fuse map: parity, slots, power-up states and safe levels, the device-wide bits (03 §3.5,
§3.6), and which pins stand at them. -/

namespace Sys2Proof.Machine

/-! ### The sensed map (03 R59, R60, R62) -/

/-- Word `w` of the sensed map passes its even parity (R62). -/
def fuseOk (s : State) (w : Fin 6) : Bool := !parityOf s.pins.fuse[w]

/-- PIN_STAT.FPERR. -/
def fperr (s : State) : Nat := ((List.finRange 6).map fun w => if fuseOk s w then 0 else 1 <<< w.val).sum

/-- IOV, FOD and LOCK as they act: a FUSE5 that fails parity acts as IOV 0, FOD 1, LOCK 1 (R62). -/
def iov (s : State) : Bool := fuseOk s 5 && bitAt s.pins.fuse[5] 0
def fod (s : State) : Bool := !fuseOk s 5 || bitAt s.pins.fuse[5] 1
def fuseLocked (s : State) : Bool := !fuseOk s 5 || bitAt s.pins.fuse[5] 30 || s.pins.lockProg

/-- The configurable pins with a slot in the map (Table 3.5). -/
inductive CPin where
  | pwren (n : Port) | flow (c : Chan) | dd (n : Port) | msgS (c : Chan) | vsel0 | vsel1 | fault

/-- Word and slot of a pin (Table 3.5). -/
def CPin.place : CPin → Fin 6 × Nat
  | .pwren n => if n.val < 5 then (0, n.val) else (1, n.val - 5)
  | .flow c => (1, 3 + c.val)
  | .dd n => if n.val < 5 then (2, n.val) else (3, n.val - 5)
  | .msgS c => (3, 3 + c.val)
  | .vsel0 => (4, 0)
  | .vsel1 => (4, 1)
  | .fault => (4, 2)

/-- A code that is not valid for its pin acts as R60 says: weak pull-down on DDn, hi-Z elsewhere. -/
def pinCode (s : State) (p : CPin) (raw : Nat) : Nat :=
  match p with
  | .dd _ => if raw ≤ 1 then raw else 1
  | .fault => if 4 < raw || (raw = 4 && fod s) then 0 else raw
  | .pwren _ | .flow _ | .msgS _ | .vsel0 | .vsel1 => if 4 < raw then 0 else raw

/-- The slot's field from bit `lo` up, in force: a word that fails parity acts as code 0 (R62). -/
def slotCode (s : State) (p : CPin) (lo : Nat) : Nat :=
  let w := p.place.1
  if fuseOk s w then pinCode s p (fld s.pins.fuse[w] (6 * p.place.2 + lo) 3) else 0

/-- PU and SF of a pin (R59). -/
def puCode (s : State) (p : CPin) : Nat := slotCode s p 0
def sfCode (s : State) (p : CPin) : Nat := slotCode s p 3

/-! ### Pads: what the hub does at a pin, and the level (03 Table 3.4, R67, R72–R76, R426) -/

/-- What the hub does at a pin: nothing, a weak pull, or a driven level. -/
inductive Pad where
  | hiZ | down | up | low | high
  deriving DecidableEq

/-- The state that a code of Table 3.4 names. -/
def padOfCode (code : Nat) : Pad :=
  if code = 1 then .down else if code = 2 then .up else if code = 3 then .low else if code = 4 then .high else .hiZ

/-- Driven to a level. -/
def padDrive (b : Bool) : Pad := if b then .high else .low

/-- Index of a pin's slot. -/
def CPin.index (p : CPin) : Nat := 5 * p.place.1.val + p.place.2

/-- The board's resistor on a pin: a pull-down on a used PWRENn, a pull-up on FAULT_N with FOD = 1, none on a lane (R60,
R72); on the other pins the board chooses (log 6). -/
def boardPull (s : State) (p : CPin) : Option Bool :=
  match p with
  | .pwren n => if Config.portUsed n.val then some false else none
  | .fault => if fod s then some true else none
  | .dd _ => none
  | .flow _ | .msgS _ | .vsel0 | .vsel1 => Config.boardPull p.index

/-- The pin is a lane, which a chip may drive. -/
def CPin.isLane : CPin → Bool
  | .dd _ => true
  | .pwren _ | .flow _ | .msgS _ | .vsel0 | .vsel1 | .fault => false

/-- The level of a pin, none where the spec does not define it: a pull against the board's (R426), a pad at hi-Z that the
board does not pull (R76), a lane that the hub does not drive. -/
def padLevelOf (s : State) (p : CPin) (x : Pad) : Option Bool :=
  match x with
  | .low => some false
  | .high => some true
  | .down => if p.isLane || boardPull s p == some true then none else some false
  | .up => if p.isLane || boardPull s p == some false then none else some true
  | .hiZ => boardPull s p

/-- The code of two VSEL levels. -/
def vselCode (a b : Bool) : Fin 4 := Fin.ofNat 4 (2 * b2n b + b2n a)

/-- The code of the VSEL pads from the levels that the spec defines: an open level is a free value, and the board lets no
such pin make the code 0b11 (R74, R115; log 6). -/
def vselFill (s : State) (a b : Option Bool) : State × Fin 4 :=
  match a, b with
  | some x, some y => (s, vselCode x y)
  | some x, none => if x then (s, 1) else (nextFree s, vselCode false (Config.freeBit s.free))
  | none, some y => if y then (s, 2) else (nextFree s, vselCode (Config.freeBit s.free) false)
  | none, none => (nextFree s, Fin.ofNat 4 ((Config.freeWord s.free).toNat % 3))

/-- The code of the VSEL pads at their SF codes: a pin that its code drives has that level (15 R396). -/
def vselPads (s : State) : State × Fin 4 :=
  vselFill s (padLevelOf s .vsel0 (padOfCode (sfCode s .vsel0))) (padLevelOf s .vsel1 (padOfCode (sfCode s .vsel1)))

/-- The code of the VSEL pads at their PU codes; `pads` is what the pads read where no level is defined (04 R103). -/
def vselStart (s : State) (pads : Fin 4) : Fin 4 :=
  vselCode ((padLevelOf s .vsel0 (padOfCode (puCode s .vsel0))).getD (pads.val.testBit 0))
    ((padLevelOf s .vsel1 (padOfCode (puCode s .vsel1))).getD (pads.val.testBit 1))

/-- FAULT_N is asserted (15 R394). -/
def faultLow (s : State) : Bool :=
  (List.finRange 21).any fun k => s.flt.src.getLsbD k.val && decide (s.flt.pinsev.toNat ≤ s.flt.lsev[k].toNat)

/-- FAULT_N in functional operation: low while asserted, else high, or released with FOD = 1 (15 R394, Table 3.5). -/
def faultPad (s : State) : Pad := if faultLow s then .low else if fod s then .hiZ else .high

/-! ### Which phase a pin is in (03 R63, Table 3.6) -/

/-- The release group of a block (05 Table 5.5). -/
def groupOf : Blk → Nat
  | .upl | .hub | .ttb => 2
  | .prt _ | .xlt => 3
  | .jx _ => 4
  | .mbr | .mvf _ => 5
  | .sys | .pin | .clk | .rst | .opt | .bkp | .pwr | .flt | .dbg => 1

/-- The block has been released by the bring-up in progress, or bring-up is complete. -/
def released (s : State) (b : Blk) : Bool :=
  s.rst.phase == .run || (s.rst.phase == .b4 && decide (groupOf b ≤ s.rst.group))

/-- Blocks that own a pin. -/
def CPin.owners : CPin → List Blk
  | .pwren n => [.prt n]
  | .flow c => [.jx c, .mbr]
  | .dd n => [.prt n]
  | .msgS c => [.jx c]
  | .vsel0 => [.pwr]
  | .vsel1 => [.pwr]
  | .fault => [.flt]

/-- VSEL and FAULT_N keep their functional levels through a Block reset of their owner (R63, 05 Table 5.7, 15 R394). -/
def CPin.keepsInReset : CPin → Bool
  | .vsel0 | .vsel1 | .fault => true
  | .pwren _ | .flow _ | .dd _ | .msgS _ => false

/-- VSEL0 and VSEL1. -/
def CPin.isVsel : CPin → Bool
  | .vsel0 | .vsel1 => true
  | .pwren _ | .flow _ | .dd _ | .msgS _ | .fault => false

/-- The pin's rail is valid: VDDIO_L for the lanes, VDDIO_G for the others (Table 3.2). -/
def railOk (s : State) (p : CPin) : Bool := if p.isLane then s.pins.railL else s.pins.railG

/-- The map has been sensed for the pin since the last Whole reset began (R61). -/
def sensedFor (s : State) (p : CPin) : Bool := if p.isLane then s.pins.sensedL else s.pins.sensedG

/-- Until the sense the pin is at hi-Z: after POR, or where its rail has just become valid (R61). -/
def hiZFor (s : State) (p : CPin) : Bool := s.pins.porHiZ || (!p.isLane && s.pins.gHiZ)

/-- The code a pin stands at while it is not under functional control, none while it is (R63, Table 3.6). VSEL is driven
by its controller from its release on, and held in a Device or Core reset. -/
def fusedCode (s : State) (p : CPin) : Option Nat :=
  if p.owners.any fun b => !released s b then
    if s.rst.reach == .whole then some (if sensedFor s p then puCode s p else if hiZFor s p then 0 else sfCode s p)
    else if p.isVsel then none
    else some (sfCode s p)
  else if p.owners.any fun b => siding s b || ((s.hdr b).inrst && !p.keepsInReset) then some (sfCode s p)
  else none

/-- What the hub does at a pin whose functional state is `functional`: nothing below a valid rail (R67). -/
def padNow (s : State) (p : CPin) (functional : Pad) : Pad :=
  if railOk s p then (match fusedCode s p with
    | some c => padOfCode c
    | none => functional)
  else .hiZ

end Sys2Proof.Machine
end

