-- ==== Sys2Proof/Machine/Xlt.lean ====
section
/-! DEFINITION. The translator: banks, credits, items, halt marks, and the Basic lane (10). -/

namespace Sys2Proof.Machine

/-! ### Items and groups (10 R246, R258) -/

/-- An IN item, that is a fetch or a stored item. -/
def Item.isIn (i : Item) : Bool := i.kind = .inn || i.kind = .sin

/-- Group number: 0 for EP0 of either direction, e for OUT e, 16 + e for IN e. -/
def grp (isIn : Bool) (ep : BitVec 4) : Nat := if ep = 0 then 0 else if isIn then 16 + ep.toNat else ep.toNat

def Item.grp (i : Item) : Nat := Machine.grp i.isIn i.ep

/-- One side counts the item as delivered: a stored OUT item or a stored IN item (R265). -/
def Item.delivered (i : Item) : Bool := !i.isIn || i.stored

/-- The mark of a group: EP0 sets bit 0 of both halves (Table 10.7). -/
def haltMask (g : Nat) : Half × Half :=
  if g = 0 then (1, 1) else if g < 16 then (BitVec.ofNat 16 (1 <<< g), 0) else (0, BitVec.ofNat 16 (1 <<< (g - 16)))

/-- The group has a halt mark. -/
def marked (p : XPort) (g : Nat) : Bool := if g < 16 then p.outHalt.getLsbD g else p.inHalt.getLsbD (g - 16)

/-! ### Banks and credits (10 R248, R249) -/

/-- Credits of a bank. -/
def bankFree (b : Bank) : Nat :=
  match b.state with
  | .free => 8
  | .opened => 8 - b.written
  | .closed => 0

/-- Credits of a pair. -/
def pairFree (v : Vector Bank 2) : Nat := bankFree v[0] + bankFree v[1]

/-- OUTFREE and INFREE: 0 without a grant. -/
def outFree (p : XPort) : Nat := if p.granted then pairFree p.ob else 0
def inFree (p : XPort) : Nat := if p.granted then pairFree p.ib else 0

/-- The other bank. -/
def otherBank (b : Fin 2) : Fin 2 := if b = 0 then 1 else 0

/-- The OPEN bank of a pair, or the FREE bank that the next item opens (R248 rules 1 and 2). -/
def pickBank (v : Vector Bank 2) (last : Option (Fin 2)) : Option (Fin 2) :=
  if v[0].state = .opened then some 0
  else if v[1].state = .opened then some 1
  else match last with
    | none => if v[0].state = .free then some 0 else if v[1].state = .free then some 1 else none
    | some l =>
      if v[otherBank l].state = .free then some (otherBank l) else if v[l].state = .free then some l else none

/-- Write the next slot of a bank (R248 rules 1 to 3). -/
def writeSlot (b : Bank) : Bank :=
  let w := (if b.state = .free then 0 else b.written) + 1
  ⟨if w = 8 then .closed else .opened, w⟩

/-- A CLOSED bank without unfinished items becomes FREE (R248 rule 4). -/
def drainBank (items : List Item) (isIn : Bool) (k : Fin 2) (b : Bank) : Bank :=
  if b.state = .closed && !(items.any fun i => i.isIn = isIn && i.bank = k) then {} else b

/-- All banks of a port after items have finished. -/
def drainBanks (p : XPort) : XPort :=
  { p with ob := #v[drainBank p.items false 0 p.ob[0], drainBank p.items false 1 p.ob[1]],
           ib := #v[drainBank p.items true 0 p.ib[0], drainBank p.items true 1 p.ib[1]] }

/-- CRET[n] is raised whenever OUTFREE rises (R251). -/
def creditRaise (old : Nat) (s : State) (n : Port) : State :=
  if old < outFree (s.xport n) then evt s .xlt n.val else s

/-- Update a port's items and let its banks drain. -/
def xltUpdate (s : State) (n : Port) (f : XPort → XPort) : State :=
  creditRaise (outFree (s.xport n)) (s.modXport n fun p => drainBanks (f p)) n

/-! ### Translated ports and grants (10 R245, R250) -/

/-- The port is ENABLED at Basic (R250). -/
def enabledBasic (s : State) (n : Port) : Bool := (s.port n).state = .ena && !(s.port n).full

/-- XLT_STAT.ACTIVE[n] (R245). -/
def translated (s : State) (n : Port) : Bool :=
  enabledBasic s n && !(s.port n).suspReq && active s .xlt && (s.xport n).granted

/-- A grant (R250, R266). The counters are kept. -/
def grant (s : State) (n : Port) : State :=
  evt (s.modXport n fun p => { outDone := p.outDone, inDone := p.inDone, granted := true }) .xlt n.val

/-- XLT becomes active: a grant to every port ENABLED at Basic that holds no state. -/
def grantAll (s : State) : State :=
  allPorts.foldl (fun a n => if enabledBasic a n && !(a.xport n).granted then grant a n else a) s

/-- A port loses its translator state (R269). -/
def xltLose (s : State) (n : Port) : State :=
  s.modXport n fun p => { outDone := p.outDone, inDone := p.inDone }

/-! ### Halt marks and discards (10 R265) -/

/-- Set the marks of some groups. -/
def setMarks (p : XPort) (gs : List Nat) : XPort :=
  gs.foldl (fun a g => { a with outHalt := a.outHalt ||| (haltMask g).1, inHalt := a.inHalt ||| (haltMask g).2 }) p

/-- The items of `p` that a discard of the items chosen by `sel` removes: those, and every item of a group that loses a
delivered one. An item that `keep` protects stays. -/
def goneItems (p : XPort) (sel keep : Item → Bool) : List Item × List Nat :=
  let first := p.items.filter fun i => sel i && !keep i
  let lost := (first.filter Item.delivered).map Item.grp
  (p.items.filter fun i => (sel i || lost.contains i.grp) && !keep i, lost)

/-- Discard items under R265: marks, HALT[n], DROPCNT. A fetch that has not been filled is released uncounted. -/
def discard (s : State) (n : Port) (sel keep : Item → Bool) : State :=
  let g := goneItems (s.xport n) sel keep
  let cnt := (g.1.filter Item.delivered).length
  let s1 := xltUpdate s n fun p =>
    { setMarks p g.2 with items := p.items.filter fun i => !((sel i || g.2.contains i.grp) && !keep i) }
  let s2 := { s1 with xlt := { s1.xlt with dropCnt := satAdd 0xFFFF s1.xlt.dropCnt cnt } }
  if g.2.isEmpty then s2 else evt s2 .xlt (16 + n.val)

/-- Set the mark of one group: every unfinished item of it is discarded (R265). -/
def haltGroup (s : State) (n : Port) (g : Nat) : State :=
  let gone := (s.xport n).items.filter fun i => i.grp = g
  let s1 := xltUpdate s n fun p => { setMarks p [g] with items := p.items.filter fun i => i.grp ≠ g }
  evt { s1 with xlt := { s1.xlt with
    dropCnt := satAdd 0xFFFF s1.xlt.dropCnt (gone.filter Item.delivered).length } } .xlt (16 + n.val)

/-- An uncorrectable slot (R268): the chosen items are discarded and ERR.ECC is set. -/
def xltEcc (s : State) (n : Port) (sel : Item → Bool) : State :=
  raise (discard (sramUnc s) n sel fun _ => false) .xlt 3

/-! ### Fetches and deliveries (10 R247, R260) -/

/-- Post a fetch (R246–R248). -/
def postFetch (s : State) (n : Port) (sin : Bool) (addr : BitVec 7) (ep : BitVec 4) (len : Nat) : State :=
  s.modXport n fun p =>
    match pickBank p.ib p.ibLast with
    | none => p
    | some b =>
      { p with ib := p.ib.set b.val (writeSlot p.ib[b]) b.isLt, ibLast := some b,
               items := p.items ++ [{ kind := if sin then .sin else .inn, ep := ep, addr := addr, seq := false,
                                      bytes := [], bank := b, len := len }] }

/-- An IN item is finished by delivery: INDONE, and the prefetch of R260. -/
def finishIn (s : State) (n : Port) (i : Item) : State :=
  let s1 := xltUpdate s n fun p =>
    { p with items := p.items.filter (fun x => !(x.isIn && x.grp = i.grp)), inDone := inc16 p.inDone,
             ackable := if p.ackable = some i.ep then none else p.ackable }
  if i.kind = .inn && i.ep ≠ 0 && i.bytes.length = 64 && s1.xlt.prefetch.getLsbD n.val &&
      decide (1 ≤ inFree (s1.xport n)) && !marked (s1.xport n) i.grp then
    postFetch s1 n false i.addr i.ep i.len
  else s1

/-- The IN item of a group. -/
def inItem (p : XPort) (ep : BitVec 4) : Option Item := p.items.find? fun i => i.isIn && i.grp = grp true ep

/-- The next packet addressed to the chip is an ACK for the endpoint whose DATA is pending (R182, R254). -/
def xltAck (s : State) (n : Port) (ep : BitVec 4) : State :=
  if (s.xport n).ackable = some ep then
    match inItem (s.xport n) ep with
    | some i => if i.sent then finishIn s n i else s
    | none => s
  else s

/-! ### The Basic lane (10 R257–R262) -/

/-- The item waits to be sent: a stored IN item waits for the host, not for the lane (log 23). -/
def waiting (i : Item) : Bool := !i.stored

/-- The oldest ready item (R258), as the list before it, itself and the list after it. -/
def readySplit (backoff : List Nat) : List Nat → List Item → Option (List Item × Item × List Item)
  | _, [] => none
  | seen, i :: r =>
    if waiting i && !seen.contains i.grp && !backoff.contains i.grp then some ([], i, r)
    else match readySplit backoff (if waiting i then i.grp :: seen else seen) r with
      | none => none
      | some (a, x, b) => some (i :: a, x, b)

/-- An item as the packet that the translator sends on the lane: a fetch carries the SEQ that it expects of the chip (R257). -/
def itemPkt (p : XPort) (i : Item) : RawPkt :=
  match i.kind with
  | .out => mkPkt 1 i.addr i.ep i.seq (BitVec.ofNat 10 (i.bytes.length - 1)) i.bytes false
  | .outz => mkPkt 2 i.addr i.ep i.seq 0 [] false
  | .setup => mkPkt 3 i.addr i.ep i.seq 7 i.bytes false
  | .sout => mkPkt 5 i.addr i.ep i.seq (BitVec.ofNat 10 (i.bytes.length - 1)) i.bytes false
  | .inn => mkPkt 4 i.addr i.ep p.inExp[i.ep.toNat] (BitVec.ofNat 10 i.len) [] false
  | .sin => mkPkt 6 i.addr i.ep p.inExp[i.ep.toNat] (BitVec.ofNat 10 i.len) [] false

/-- The item between `a` and `b` goes on the lane. The slot of an item with a payload is read: corrected words are counted, and an
uncorrectable one discards the item (R268). -/
def itemSend (s : State) (n : Port) (a : List Item) (i : Item) (b : List Item) (ecc : SramRead) : State :=
  let go (t : State) : State :=
    sendOwn (t.modXport n fun p => { p with items := a ++ { i with onLane := true } :: b, fsWait := false }) n
      (itemPkt (t.xport n) i)
  if i.isIn then go s
  else match ecc with
    | none => xltEcc s n fun x => x = i
    | some k => go (sramCorr s k)

/-- ITEM_START, at a start opportunity in the service window of R261 (log 1): the oldest ready item goes on the lane
(R258, R262). -/
def execItemStart (n : Port) (ecc : SramRead) (s : State) : Out :=
  let p := s.xport n
  if translated s n && !laneUsed p && !held s 11 then
    match readySplit p.backoff [] p.items with
    | none => .next s
    | some (a, i, b) => coreCmd (fun t => itemSend t n a i b ecc) s
  else .next s

/-- Replace or remove the item on the lane. -/
def laneMap (l : List Item) (f : Item → Option Item) : List Item :=
  l.filterMap fun i => if i.onLane then f i else some i

/-- The item on the lane is finished. -/
def laneFinish (s : State) (n : Port) (outDone : Bool) : State :=
  xltUpdate s n fun p =>
    { p with items := laneMap p.items fun _ => none, outDone := if outDone then inc16 p.outDone else p.outDone }

/-- The group of an item is in back-off: the chip answered NRDY, not at all, or with a packet that failed (R258). -/
def backOff (s : State) (n : Port) (i : Item) : State :=
  s.modXport n fun p => { p with backoff := if p.backoff.contains i.grp then p.backoff else p.backoff ++ [i.grp] }

/-- A retry after the back-off of its group (R259): dropped at RETRYLIM or where DROP named the item. -/
def laneRetry (s0 : State) (n : Port) (i : Item) : State :=
  let s := backOff s0 n i
  let lim := s.xlt.retryLim
  if i.dropped then discard s n (fun x => x.onLane) fun _ => false
  else if lim ≠ 0 && lim ≤ i.retries + 1 then
    raise (discard s n (fun x => x.onLane) fun _ => false) .xlt 2
  else s.modXport n fun p =>
    { p with items := laneMap p.items fun x => some { x with onLane := false, retries := x.retries + 1 } }

/-- The item on the lane is finished by a STALL: its group is marked (Table 10.3). -/
def laneStall (s : State) (n : Port) (i : Item) : State := haltGroup (laneFinish s n false) n i.grp

/-- The chip filled a fetch: INDATA[n]; the expected SEQ of an IN group toggles; an EP0 packet has been stored. -/
def laneStore (s : State) (n : Port) (i : Item) (seq : Bool) (bytes : List Byte) : State :=
  let s1 := s.modXport n fun p =>
    { p with items := laneMap p.items fun x => some { x with onLane := false, stored := true, seq := seq, bytes := bytes },
             inExp := if i.kind = .inn then p.inExp.set i.ep.toNat (!p.inExp[i.ep.toNat]) i.ep.isLt else p.inExp,
             lastSetup := if i.ep = 0 then none else p.lastSetup }
  evt s1 .xlt (8 + n.val)

/-- The chip's answer to an item as the translator takes it: a DATA above 64 bytes is no response (R247), and one longer than
the fetch's LEN + 1 is discarded (07 R168, R172). -/
def chipAnswer (i : Item) : ChipAnswer → ChipAnswer
  | .data q b => if 64 < b.length || i.len + 1 < b.length then .absent else .data q b
  | .ack => .ack
  | .nrdy => .nrdy
  | .stall => .stall
  | .absent => .absent
  | .failed => .failed

/-- The translator's ACK to a chip's DATA (R257), with the ADDR, EP and SEQ of the packet answered (07 R167). -/
def chipAck (s : State) (n : Port) (i : Item) (seq : Bool) : State := sendOwn s n (mkPkt 9 i.addr i.ep seq 0 [] false)

/-- SCHEDLOST: a SOUT ended without ACK. -/
def schedLost (s : State) : State :=
  evt { s with xlt := { s.xlt with lostCnt := inc16 s.xlt.lostCnt } } .xlt 24

/-- Table 10.3. -/
def laneOutcome (s : State) (n : Port) (i : Item) (a : ChipAnswer) : State :=
  match i.kind with
  | .out | .outz =>
    match a with
    | .ack => laneFinish s n true
    | .stall => laneStall s n i
    | .nrdy | .data _ _ | .absent | .failed => laneRetry s n i
  | .setup =>
    match a with
    | .ack => laneFinish s n true
    | .stall | .nrdy | .data _ _ | .absent | .failed => laneRetry s n i
  | .sout =>
    match a with
    | .ack => laneFinish s n true
    | .stall => laneStall s n i
    | .nrdy | .data _ _ | .absent | .failed => schedLost (laneFinish (backOff s n i) n false)
  | .inn =>
    match a with
    | .data q b =>
      let s1 := chipAck s n i q
      if q = (s1.xport n).inExp[i.ep.toNat] then laneStore s1 n i q b
      else if i.dropped then laneFinish s1 n false
      else s1.modXport n fun p => { p with items := laneMap p.items fun x => some { x with onLane := false } }
    | .stall => laneStall s n i
    | .ack | .nrdy | .absent | .failed => laneRetry s n i
  | .sin =>
    match a with
    | .data q b => laneStore s n i q b
    | .stall => laneStall s n i
    | .ack | .nrdy | .absent | .failed => laneFinish (backOff s n i) n false

/-- A chip that answers drives its lane, so the count of missed probes starts again (09 R231). -/
def chipHeard (s : State) (n : Port) : ChipAnswer → State
  | .absent => s
  | .ack | .nrdy | .stall | .failed | .data _ _ => s.modPort n fun p => { p with misses := 0 }

/-- ITEM_OUTCOME (R259). -/
def execItemOutcome (n : Port) (a : ChipAnswer) (s : State) : Out :=
  match (s.xport n).items.find? fun i => i.onLane with
  | none => .next s
  | some i => coreCmd (fun t => laneOutcome (chipHeard t n a) n i (chipAnswer i a)) s

/-- BACKOFF_END (R258). -/
def execBackoffEnd (n : Port) (group : Fin 32) (s : State) : Out :=
  coreCmd (fun t => t.modXport n fun p => { p with backoff := p.backoff.filter (· ≠ group.val) }) s

/-- XLT_DROP (R267): the items of the named directions, except one on the lane, which keeps its outcome. -/
def dropItems (s : State) (val : Word) : State :=
  let n : Port := Fin.ofNat 8 (fld val 0 3)
  let dir := fld val 4 2
  let sel (i : Item) : Bool := if i.isIn then 2 ≤ dir else dir % 2 = 1
  if dir = 0 || !translated s n then s
  else
    let lost := (goneItems (s.xport n) sel fun i => i.onLane).2
    (discard s n sel fun i => i.onLane).modXport n fun p =>
      { p with items := p.items.map fun i =>
          if i.onLane && (sel i || lost.contains i.grp) then { i with dropped := true } else i }

/-- XLT_DROP. -/
def execXltDrop (val : Word) (s : State) : Out := pageCmd .xlt (fun t => dropItems t val) s

/-- The translator's own FSTART, with the frame number that the hub captured (R261). -/
def basicFstart (s : State) (n : Port) : State :=
  sendOwn (s.modPort n fun p => { p with sinceFs := some 0 }) n (fstartPkt s.clk.frame)

/-- BASIC_FSTART_QUIET_WINDOW_START (R261): the FSTART that waited for the end of the quiet window starts. -/
def execBasicFstartQuietWindowStart (n : Port) (s : State) : Out :=
  if translated s n && (s.xport n).fsWait then
    coreCmd (fun t => basicFstart (t.modXport n fun p => { p with fsWait := false }) n) s
  else .next s

/-! ### Fence and Block reset (10 R271, R272) -/

/-- Every item of every port is discarded under R265 and the credits become 0, so none returns (R251); the marks stay. -/
def xltFence (s : State) : State :=
  allPorts.foldl (fun a n =>
    (discard (a.modXport n fun p => { p with granted := false }) n (fun _ => true) fun _ => false).modXport n fun p =>
      { outDone := p.outDone, inDone := p.inDone, outHalt := p.outHalt, inHalt := p.inHalt }) s

/-- Lk 0 of a Block reset: the credits become 0 and the lane is abandoned; the groups that lose a delivered item are
kept for lk 192, after the clearing of the page. -/
def xltResetStart (s : State) : State :=
  let lost (n : Port) : Word :=
    ((s.xport n).items.filter Item.delivered).foldl (fun a i => a ||| oneBit i.grp) 0
  { s with xlt := { lost := #v[lost 0, lost 1, lost 2, lost 3, lost 4, lost 5, lost 6, lost 7] } }

/-- Lk 192: the halt marks of the lost groups. -/
def xltResetMarks (s : State) : State :=
  allPorts.foldl (fun a n =>
    let w := s.xlt.lost[n]
    if w = 0 then a
    else
      let gs := (List.range 32).filter fun g => bitAt w g
      evt (a.modXport n fun p => setMarks p gs) .xlt (16 + n.val)) { s with xlt := { s.xlt with lost := Vector.replicate 8 0 } }

end Sys2Proof.Machine
end

