-- ==== Sys2Proof/Machine/Ports.lean ====
section
/-! DEFINITION. The downstream port engines: states, settings, commands and the events of Table 9.2 (09). -/

namespace Sys2Proof.Machine

/-! ### PWRENn (09 R222–R224, R242) -/

/-- PWRENn is high: at its SF level while the port is fenced or in Block reset, low while EN is 0, else by state
(Table 9.1, Table 3.6). -/
def pwrHigh (s : State) (n : Port) : Bool :=
  let h := s.hdr (.prt n)
  if h.siding || h.inrst then sfCode s (.pwren n) = 4
  else h.en && (s.port n).state ≠ .off && (s.port n).state ≠ .sid

/-- The last fall of PWRENn is noted for the hold of R223. -/
def noteFall (old : Bool) (s : State) (n : Port) : State :=
  if old && !pwrHigh s n then s.modPort n fun p => { p with fell := some s.now } else s

/-- Enough lk have passed for port `n` by its own hold (R223). -/
def holdOver (s : State) (n : Port) : Bool :=
  match (s.port n).fell with
  | none => true
  | some t => decide (t + 16384 ≤ s.now)

/-- The window of R222 allows a rise. -/
def windowOver (s : State) : Bool :=
  match s.lastRise with
  | none => true
  | some t => decide (t + 1024 ≤ s.now)

/-- PWRENn may rise in this lk: both holds are over, no lower waiting port may rise (R222), and the entry handshake does
not hold the port (14 R369). -/
def riseAllowed (s : State) (n : Port) : Bool :=
  windowOver s && holdOver s n && !held s (portBit n) &&
    allPorts.all fun m => !(decide (m.val < n.val) && (s.port m).pwrPend && holdOver s m)

/-! ### State changes (09 R217) -/

/-- The port is in an attached state (R231). -/
def attachedState (p : PortSt) : Bool :=
  match p.state with
  | .rst | .ena | .sus | .rsm | .dsb => true
  | .dsc => p.attached
  | .off | .pwg | .sid => false

/-- DISCINFO.CAUSE is written only for a departure from an attached state (R231). -/
def setCause (s : State) (n : Port) (cause : BitVec 3) : State :=
  s.modPort n fun p => if attachedState p then { p with cause := cause } else p

/-- The port enters a state: LASTCHG; the translator state is lost on every transition out of service (10 R269). -/
def portEnter (s : State) (n : Port) (st : PState) : State :=
  let old := (s.port n).state
  let s1 := if st = .ena || st = .sus || st = .rsm then s else xltLose s n
  s1.modPort n fun p =>
    { p with state := st, drive := .none, chgFrame := if old = st then p.chgFrame else s.clk.frame,
             chgLk := if old = st then p.chgLk else s.clk.lk }

/-- What a state without an attached chip holds: no connect, suspend or resume in progress (log 24). -/
def portIdle (s : State) (n : Port) : State :=
  s.modPort n fun p =>
    { p with attached := false, debounce := false, suspReq := false, selSusp := false, held := false, noFs := false,
             sinceFs := none, misses := 0 }

/-- An aborted resume raises RSMABORT (Table 9.2, note d). -/
def rsmAbort (s : State) (n : Port) : State :=
  if (s.port n).state = .rsm then evt s (.prt n) 8 else s

/-- The trims of a port come into force (04 R84). -/
def trimApply (s : State) (n : Port) : State :=
  let t : Trim := { s.clk.trim[n] with outNow := s.clk.trim[n].out, rxNow := s.clk.trim[n].rx }
  { s with clk := { s.clk with trim := s.clk.trim.set n.val t n.isLt } }

/-- The port enters OFF: PWRENn falls, PWROFF (R224). -/
def portOff (s : State) (n : Port) : State :=
  let was := pwrHigh s n
  let s1 := portIdle (portEnter (rsmAbort s n) n .off) n
  let s2 := trimApply (s1.modPort n fun p => { p with pwrPend := false, watched := false }) n
  if was && !pwrHigh s2 n then evt (noteFall was s2 n) (.prt n) 12 else s2

/-- PWRENn rises and the port enters POWERING (R224). -/
def portRise (s : State) (n : Port) : State :=
  let s1 := portEnter s n .pwg
  { s1.modPort n fun p => { p with pwrPend := false, watched := false } with lastRise := some s.now }

/-- A port that has applied POWERNOW = 1 in OFF raises PWRENn, or waits with PWRPEND (R222, R223). -/
def portPower (s : State) (n : Port) : State :=
  if riseAllowed s n then portRise s n else s.modPort n fun p => { p with pwrPend := true }

/-- The written settings come into force (R218). -/
def takeSettings (s : State) (n : Port) : State :=
  s.modPort n fun p => { p with powerNow := p.power, speedNow := p.speed, settleNow := p.settle }

/-- Apply in OFF or POWERING (R218). -/
def portApply (s : State) (n : Port) : State :=
  let s1 := takeSettings s n
  if (s1.port n).powerNow then
    (if (s1.port n).state = .off && !(s1.port n).pwrPend then portPower s1 n else s1)
  else if (s1.port n).state = .off then s1.modPort n fun p => { p with pwrPend := false }
  else portOff s1 n

/-- Lk 0 of a port reset (R227). -/
def portReset (s : State) (n : Port) : State :=
  let s1 := portEnter (rsmAbort (trimApply s n) n) n .rst
  s1.modPort n fun p =>
    { p with drive := .forced, full := false, suspReq := false, selSusp := false, held := false, noFs := false,
             sinceFs := none, misses := 0 }

/-! ### Commands (09 R219, R221) -/

/-- A command code 1 to 4 is taken in a state (Table 9.2, rows 17 to 20). -/
def cmdTaken (st : PState) (code : Nat) : Bool :=
  match st with
  | .sid => false
  | .off | .pwg | .dsc => code = 1
  | .rst => code = 1 || code = 4
  | .ena | .sus => true
  | .rsm => code = 1 || code = 3 || code = 4
  | .dsb => code = 1 || code = 4

/-- A refused command (R219). -/
def cmdRefuse (s : State) (n : Port) (code : BitVec 4) : State :=
  evt (s.modPort n fun p => { p with rejState := p.state, rejCmd := code }) (.prt n) 11

/-- RESET (row 17). -/
def cmdReset (s : State) (n : Port) : State :=
  match (s.port n).state with
  | .off | .pwg => portApply s n
  | .dsc | .rst | .ena | .sus | .rsm | .dsb =>
    let s1 := takeSettings s n
    if (s1.port n).powerNow then portReset s1 n else portOff (setCause s1 n 4) n
  | .sid => s

/-- SUSPEND (row 18, R232). -/
def cmdSuspend (s : State) (n : Port) : State :=
  match (s.port n).state with
  | .ena => s.modPort n fun p => { p with suspReq := true }
  | .sus => s.modPort n fun p => { p with selSusp := true }
  | .off | .pwg | .dsc | .rst | .rsm | .dsb | .sid => s

/-- A resume starts: the hub drives DDn high, after the quiet window where the lane's idle run is in it (R235). -/
def startResume (s : State) (n : Port) (quiet : Bool) : State :=
  (portEnter s n .rsm).modPort n fun p => { p with drive := if quiet then .quiet else .resume, held := false }

/-- A resume of a SUSPENDED port. One that the entry handshake holds starts none: it waits until the hold ends (14 R369). -/
def wantResume (s : State) (n : Port) (quiet : Bool) : State :=
  if held s (portBit n) then s.modPort n fun p => { p with held := true } else startResume s n quiet

/-- RESUME (row 19, R234). -/
def cmdResume (s : State) (n : Port) (quiet : Bool) : State :=
  let p := s.port n
  match p.state with
  | .sus => wantResume s n quiet
  | .ena =>
    if !p.suspReq then s
    else if p.sinceFs.getD 0 < 3 then s.modPort n fun p => { p with suspReq := false, noFs := true }
    else s.modPort n fun p => { p with held := true }
  | .off | .pwg | .dsc | .rst | .rsm | .dsb | .sid => s

/-- DISABLE (row 20). -/
def cmdDisable (s : State) (n : Port) : State :=
  match (s.port n).state with
  | .rst | .ena | .sus | .rsm =>
    (portEnter (rsmAbort s n) n .dsb).modPort n fun p =>
      { p with suspReq := false, selSusp := false, held := false, noFs := false, sinceFs := none }
  | .off | .pwg | .dsc | .dsb | .sid => s

/-- The port refuses a command in its present state: EN is 0, the code is not one of the four, or the table says so. -/
def cmdRefused (s : State) (n : Port) (code : BitVec 4) : Bool :=
  !(s.hdr (.prt n)).en || code = 0 || 4 < code.toNat || !cmdTaken (s.port n).state code.toNat

/-- A port command, judged in the state the port is in (R219, R220). -/
def portCmd (s : State) (n : Port) (code : BitVec 4) (quiet : Bool) : State :=
  if cmdRefused s n code then cmdRefuse s n code
  else if code = 1 then cmdReset s n
  else if code = 2 then cmdSuspend s n
  else if code = 3 then cmdResume s n quiet
  else cmdDisable s n

/-- RESET. -/
def execReset (n : Port) (s : State) : Out := pageCmd (.prt n) (fun t => portCmd t n 1 false) s

/-- SUSPEND. -/
def execSuspend (n : Port) (s : State) : Out := pageCmd (.prt n) (fun t => portCmd t n 2 false) s

/-- RESUME. `quiet`: the command executes in the quiet window of the lane's idle run (R235). -/
def execResume (n : Port) (quiet : Bool) (s : State) : Out := pageCmd (.prt n) (fun t => portCmd t n 3 quiet) s

/-- DISABLE. -/
def execDisable (n : Port) (s : State) : Out := pageCmd (.prt n) (fun t => portCmd t n 4 false) s

/-! ### Power events (rows 3 and 8) -/

/-- A hardware event of a port: none reaches a port in Block reset. -/
def portEvent (n : Port) (f : State → State) (s : State) : Out :=
  if (s.hdr (.prt n)).inrst then .next s else coreCmd f s

/-- PWREN_RISE: the holds of R222 and R223 have come to allow it, in ascending order of the waiting ports, and the entry
handshake does not hold the port. -/
def execPwrenRise (n : Port) (s : State) : Out :=
  portEvent n (fun t => if (t.port n).pwrPend && riseAllowed t n then portRise t n else t) s

/-- PFLT_Nn is watched in the state once the blanking has ended (R225). -/
def pfltWatched (p : PortSt) : Bool :=
  match p.state with
  | .pwg => p.watched
  | .off => false
  | .dsc | .rst | .ena | .sus | .rsm | .dsb | .sid => true

/-- FAULT_BLANKING_END (R225). -/
def execFaultBlankingEnd (n : Port) (s : State) : Out :=
  portEvent n (fun t => if (t.port n).state = .pwg then t.modPort n fun p => { p with watched := true } else t) s

/-- SETTLE_END (R224): a settle count is longer than the blanking. -/
def execSettleEnd (n : Port) (s : State) : Out :=
  portEvent n (fun t => if (t.port n).state = .pwg then
      evt ((portEnter t n .dsc).modPort n fun p => { p with watched := true }) (.prt n) 3 else t) s

/-- An overcurrent (R225; notes c and f). -/
def overcurrent (s : State) (n : Port) : State :=
  let p := s.port n
  if p.state = .sid then raise s (.prt n) 0
  else if pfltWatched p then
    raise (portOff ((setCause s n 3).modPort n fun p => { p with powerNow := false, ovcCnt := inc16 p.ovcCnt }) n) (.prt n) 0
  else s

/-- OVERCURRENT: PFLT_Nn has read low for 64 lk; with `low` false it reads high again. A port in Block reset does not act on
it. -/
def execOvercurrent (n : Port) (low : Bool) (s : State) : Out :=
  coreCmd (fun t =>
    let t1 := t.modPort n fun p => { p with pflt := low }
    if low && !(t.hdr (.prt n)).inrst then overcurrent t1 n else t1) s

/-! ### Attach (row 13, R226) -/

/-- CONNECT: a high run reaches 1,024 samples in DISCONNECTED, with ATTACHED 0 or 1 (Table 6.4). -/
def execConnect (n : Port) (s : State) : Out :=
  portEvent n (fun t => if (t.port n).state = .dsc && !(t.port n).debounce then
      evt (t.modPort n fun p => { p with debounce := true }) (.prt n) 0 else t) s

/-- CONNECT_WITHDRAWN: a low sample during the debounce. -/
def execConnectWithdrawn (n : Port) (s : State) : Out :=
  portEvent n (fun t => if (t.port n).state = .dsc && (t.port n).debounce then
      t.modPort n fun p => { p with debounce := false } else t) s

/-- ATTACH: the debounce completes. -/
def execAttach (n : Port) (s : State) : Out :=
  portEvent n (fun t => if (t.port n).state = .dsc && (t.port n).debounce then
      evt (t.modPort n fun p => { p with debounce := false, attached := true }) (.prt n) 1 else t) s

/-- DETACH: 64 consecutive low samples while attached. -/
def execDetach (n : Port) (s : State) : Out :=
  portEvent n (fun t => if (t.port n).state = .dsc && (t.port n).attached then
      evt (t.modPort n fun p => { p with attached := false }) (.prt n) 2 else t) s

/-! ### The port reset (R227; 06 Table 6.5, R154, R155) -/

/-- FORCED_PHASE_END: lk 2,048. -/
def execForcedPhaseEnd (n : Port) (s : State) : Out :=
  portEvent n (fun t => if (t.port n).state = .rst && (t.port n).drive = .forced then
      t.modPort n fun p => { p with drive := .window } else t) s

/-- CHIRP_ACCEPTED: the answer is sent and the port runs at Full; a port set to Basic only never answers. -/
def execChirpAccepted (n : Port) (s : State) : Out :=
  portEvent n (fun t => if (t.port n).state = .rst && (t.port n).drive = .window && (t.port n).speedNow ≠ 1 then
      t.modPort n fun p => { p with drive := .answer, full := true } else t) s

/-- CHIRP_ERROR: the lane is still high at lk 3,072. -/
def execChirpError (n : Port) (s : State) : Out :=
  portEvent n (fun t => if (t.port n).state = .rst && (t.port n).drive = .window then
      raise (t.modPort n fun p => { p with drive := .errorLow }) (.prt n) 3 else t) s

/-- The reset ends at lk 16,384 (R227): ENABLED, and the route of address 0 moves to the port (08 R195). -/
def resetDone (s : State) (n : Port) : State :=
  let s1 := (portEnter s n .ena).modPort n fun p => { p with attached := false, debounce := false, misses := 0 }
  let s2 := evt { s1 with hub := { s1.hub with routes := s1.hub.routes.set 0 (BitVec.ofNat 4 n.val) } } (.prt n) 4
  if (s.port n).full then xltLose s2 n else if active s2 .xlt then grant s2 n else s2

/-- RESET_END (row 7): not before the forced phase has ended. -/
def execResetEnd (n : Port) (s : State) : Out :=
  portEvent n (fun t => if (t.port n).state = .rst && (t.port n).drive ≠ .forced then resetDone t n else t) s

/-! ### Presence (rows 4 and 5, R231) -/

/-- The port leaves ENA, SUS or DSB for DISCONNECTED. -/
def portLost (s : State) (n : Port) (cause : BitVec 3) : State :=
  let s1 := portIdle (portEnter (setCause s n cause) n .dsc) n
  evt (s1.modPort n fun p => { p with discCnt := inc16 p.discCnt }) (.prt n) 5

/-- Presence is watched in the state. -/
def presence (p : PortSt) : Bool := p.state = .ena || p.state = .sus || p.state = .dsb

/-- SELF_RESET (row 4, note e): the run counts as a connect seen. -/
def execSelfReset (n : Port) (s : State) : Out :=
  portEvent n (fun t => if presence (t.port n) then
      evt ((portLost t n 2).modPort n fun p => { p with debounce := true }) (.prt n) 0 else t) s

/-- MISSED_PROBE (row 5). The count holds at its largest value with the check off. -/
def missedProbe (s : State) (n : Port) : State :=
  let p := s.port n
  if p.misslim ≠ 0 && p.misslim ≤ p.misses + 1 then portLost s n 1
  else s.modPort n fun p => { p with misses := satInc 15 p.misses }

/-- A high sample on DDn resets the count of missed probes (R231). -/
def probeSeen (s : State) (n : Port) : State := s.modPort n fun p => { p with misses := 0 }

/-- MISSED_PROBE; `highSeen`: a high sample, such as that of a probe, has come since the last one was missed. -/
def execMissedProbe (n : Port) (highSeen : Bool) (s : State) : Out :=
  portEvent n (fun t => if presence (t.port n) then missedProbe (if highSeen then probeSeen t n else t) n else t) s

/-! ### Babble and unsolicited drive (row 6, R239) -/

/-- The port enters DISABLED for babble. -/
def portBabble (s : State) (n : Port) (bit : Nat) : State :=
  let s1 := (portEnter s n .dsb).modPort n fun p =>
    { p with suspReq := false, selSusp := false, held := false, noFs := false, sinceFs := none, babCnt := inc16 p.babCnt }
  raise s1 (.prt n) bit

/-- UNSOLICITED_DRIVE. -/
def execUnsolicitedDrive (n : Port) (s : State) : Out :=
  portEvent n (fun t => if (t.port n).state = .ena then portBabble (probeSeen t n) n 2 else t) s

/-! ### Suspend and resume (rows 9 to 12, R232–R237) -/

/-- The suspend point (R233); a held RESUME then moves the port to RESUMING (R234); `quiet`: that lk falls in the quiet window of
the lane's idle run (R235). -/
def suspendPoint (s : State) (n : Port) (quiet : Bool) : State :=
  let p := s.port n
  let s1 := (portEnter s n .sus).modPort n fun p => { p with selSusp := p.suspReq, suspReq := false, sinceFs := none, noFs := false }
  let s2 := evt s1 (.prt n) 6
  if p.held then wantResume s2 n quiet else s2

/-- SUSPEND_POINT: a port that has sent no FSTART since it entered ENABLED has none. -/
def execSuspendPoint (n : Port) (quiet : Bool) (s : State) : Out :=
  portEvent n (fun t => if (t.port n).state = .ena && (t.port n).sinceFs.isSome then suspendPoint t n quiet else t) s

/-- RESUME_DRIVE_START (R235). -/
def execResumeDriveStart (n : Port) (s : State) : Out :=
  portEvent n (fun t => if (t.port n).state = .rsm && (t.port n).drive = .quiet then
      t.modPort n fun p => { p with drive := .resume } else t) s

/-- RESUME_END (R235). -/
def execResumeEnd (n : Port) (s : State) : Out :=
  portEvent n (fun t => if (t.port n).state = .rsm && (t.port n).drive = .resume then
      evt ((portEnter t n .ena).modPort n fun p =>
        { p with selSusp := false, sinceFs := none, noFs := true, misses := 0 }) (.prt n) 7 else t) s

/-- A remote wake on a suspended port (R237). -/
def remoteWake (s : State) (n : Port) : State :=
  if (s.port n).wakeen then
    let s1 := evt ((startResume s n false).modPort n fun p => { p with wakeCnt := inc16 p.wakeCnt, misses := 0 }) (.prt n) 9
    if s.upl.suspended && s.hub.remoteWake then { s1 with upl := { s1.upl with wakeWanted := true } } else s1
  else evt (probeSeen s n) (.prt n) 10

/-- REMOTE_WAKE; a held port accepts none (14 R369). -/
def execRemoteWake (n : Port) (s : State) : Out :=
  portEvent n (fun t => if (t.port n).state = .sus && !held t (portBit n) then remoteWake t n else t) s

/-- The upstream port leaves suspend: every SUSPENDED port with SELSUSP 0 enters RESUMING (row 11, R236); `quiet` tells
the ports whose lane is in its quiet window. -/
def upstreamWakes (s : State) (quiet : Byte) : State :=
  allPorts.foldl (fun a n => if (a.port n).state = .sus && !(a.port n).selSusp then
    wantResume a n (quiet.getLsbD n.val) else a) s

/-- A resume that waited for the end of the hold starts (14 R369). Whether its lane is in the quiet window then is a free value
(log 4). -/
def resumeWaiting (s : State) (n : Port) : State :=
  if (s.port n).state = .sus && (s.port n).held && !held s (portBit n) && !(s.hdr (.prt n)).inrst then
    startResume (nextFree s) n (Config.freeBit s.free)
  else s

/-! ### Enable, fence and Block reset (rows 1, 2, 14 to 16, R241–R244) -/

/-- EN goes from 1 to 0 (row 15). -/
def portDisableEn (s : State) (n : Port) : State :=
  if (s.port n).state = .sid then s.modHdr (.prt n) fun h => { h with en := false }
  else (portOff (setCause s n 4) n).modHdr (.prt n) fun h => { h with en := false }

/-- EN goes from 0 to 1 (row 16). -/
def portEnableEn (s : State) (n : Port) : State :=
  let s1 := s.modHdr (.prt n) fun h => { h with en := true }
  if (s.port n).state = .off then portApply s1 n else s1

/-- A fence (row 2, R242): the Timetable reservation in force becomes 0 (07 R192). One that is written while the port's Block
reset runs makes STATE read SID at once: 02 R37 puts the block in Siding, note (b) of Table 9.2 has STATE read OFF during the
reset, and the spec does not order the two (DESIGN CHOICE, log 42). -/
def portFence (s : State) (n : Port) : State :=
  let was := pwrHigh s n
  let s1 := (portEnter (rsmAbort s n) n .sid).modHdr (.prt n) fun h => { h with siding := true }
  let s2 := (portIdle s1 n).modPort n fun p => { p with pwrPend := false }
  let t : Fin 9 := Fin.ofNat 9 n.val
  let s3 := { s2 with ttb := { s2.ttb with now := s2.ttb.now.set t.val 0 t.isLt, ret := s2.ttb.ret.set t.val false t.isLt } }
  noteFall was s3 n

/-- An UNFENCE that takes effect (row 14, R243). A port whose EN is 0 enters OFF and applies nothing before EN is written 1: the
rules say apply with no word on EN (DESIGN CHOICE, log 42). -/
def portUnfence (s : State) (n : Port) : State :=
  let was := pwrHigh s n
  let s1 := portEnter s n .off
  let s2 := trimApply (s1.modHdr (.prt n) fun h => { h with siding := false }) n
  let s3 := if was && !pwrHigh s2 n then evt (noteFall was s2 n) (.prt n) 12 else s2
  let t : Fin 9 := Fin.ofNat 9 n.val
  let s4 := { s3 with ttb := { s3.ttb with ret := s3.ttb.ret.set t.val true t.isLt } }
  if (s4.hdr (.prt n)).en && !(s4.hdr (.prt n)).inrst then portApply s4 n else s4

/-- The PORTn byte of the image in force (05 Table 5.8). -/
def portOpt (s : State) (n : Port) : Byte := byteOf s.opt.shadow[6 + n.val / 4]! (n.val % 4)

/-- The port's registers at their reset values, those of the image in force (09 Table 9.5). -/
def portInit (s : State) (n : Port) : PortSt :=
  let b := portOpt s n
  { power := b.getLsbD 1, speed := b.extractLsb' 2 2, settle := b.extractLsb' 4 2, speedNow := b.extractLsb' 2 2,
    settleNow := b.extractLsb' 4 2, fell := (s.port n).fell, pflt := (s.port n).pflt }

end Sys2Proof.Machine
end

