-- ==== Sys2Proof/Machine/Block.lean ====
section
/-! DEFINITION. The isolation wrapper of a block: enable, fence, unfence and Block reset (02 R36–R39, 05 §5.7, 12 §12.10,
§12.11, 15 R395–R397). -/

namespace Sys2Proof.Machine

/-! ### Classes, sources, options -/

/-- CTL classes of Table 2.1. -/
inductive CtlClass where
  | none | reset | full
  deriving DecidableEq

def ctlClass : Blk → CtlClass
  | .prt _ | .xlt | .jx _ | .mbr | .mvf _ => .full
  | .pwr | .flt | .ttb => .reset
  | .sys | .pin | .clk | .rst | .opt | .bkp | .upl | .hub | .dbg => .none

/-- The FLT_STAT source bit of a page (15 Table 15.1). -/
def srcOf : Blk → Option (Fin 21)
  | .prt n => some ⟨n.val, by omega⟩
  | .xlt => some 8
  | .jx c => some ⟨9 + c.val, by omega⟩
  | .mbr => some 11
  | .mvf i => some ⟨12 + i.val, by omega⟩
  | .upl => some 16
  | .clk => some 17
  | .pwr => some 18
  | .opt => some 19
  | .bkp => some 20
  | .sys | .pin | .rst | .flt | .hub | .ttb | .dbg => none

/-- The source bit of a block is set. -/
def srcSet (s : State) (b : Blk) : Bool :=
  match srcOf b with
  | some k => s.flt.src.getLsbD k.val
  | none => false

/-- Byte `k` of the image in force (05 Table 5.8, Table 5.12). -/
def optByte (s : State) (k : Nat) : Byte := byteOf (s.opt.shadow.toList.getD (k / 4) 0) (k % 4)

/-- First option byte of a channel. -/
def jxOpt (c : Chan) : Nat := 0x20 + 8 * c.val

/-- The "opt" value of CTL.EN (05 Table 5.8); pages without an EN bit read 1. -/
def enOpt (s : State) : Blk → Bool
  | .prt n => (optByte s (0x18 + n.val)).getLsbD 0
  | .xlt => !(optByte s 7).getLsbD 0
  | .jx c => (optByte s (jxOpt c)).getLsbD 0
  | .mbr => (optByte s 0x30).getLsbD 0
  | .mvf i => (optByte s (0x31 + i.val)).getLsbD 0
  | .sys | .pin | .clk | .rst | .opt | .bkp | .pwr | .flt | .upl | .hub | .ttb | .dbg => true

/-- DIV of the image: an odd or out-of-range value loads 4096 (05 Table 5.8). -/
def divOpt (s : State) (c : Chan) : Nat :=
  let v := ((optByte s (jxOpt c + 1)).toNat + 256 * (optByte s (jxOpt c + 2)).toNat) % 8192
  if v % 2 = 1 || v < 10 || 4096 < v then 4096 else v

/-! ### Endpoint SEQ (07 R181, 12 R324, R329) -/

/-- SEQ of a bridge endpoint becomes 0; a pending DATA stays pending (07 R182; log 25). -/
def epSeq0 (s : State) (k : Fin 12) : State :=
  s.modBep k fun e => { e with seq := false, ackable := false }

/-- The three endpoints of an instance. -/
def instEps (i : Inst) : List (Fin 12) :=
  [⟨3 * i.val, by omega⟩, ⟨3 * i.val + 1, by omega⟩, ⟨3 * i.val + 2, by omega⟩]

/-- SEQ of every endpoint of an instance. -/
def instSeq0 (s : State) (i : Inst) : State := (instEps i).foldl epSeq0 s

/-! ### The power controller (15 R396, 04 R103) -/

/-- The level of a VSEL code: 0b11 reports P2 (04 R103). -/
def codeLevelOf (c : Fin 4) : Fin 4 := if c = 0 then 0 else if c = 1 then 1 else 2

/-- CUR at a restart from a code: the level before, where its code is that one (04 R103). -/
def curFor (before code : Fin 4) : Fin 4 := if levelCode before = code then before else codeLevelOf code

/-- A fence of the power controller (R396). -/
def pwrFence (s : State) : State :=
  let (s1, v) := vselPads s
  let s2 := s1.modHdr .pwr fun h => { h with siding := true }
  { s2 with clk := { s2.clk with vcode := v, cur := curFor s.clk.cur v, vbusy := false, vphase := .idle, vsteps := [] } }

/-- The PGOOD wait of a restart from the code being driven (04 R103). -/
def pwrRestart (s : State) : State :=
  { s with clk := { s.clk with cur := curFor s.clk.cur s.clk.vcode, vbusy := true, vphase := .start, vsteps := [] } }

/-! ### Fence and unfence -/

/-- A fence, by CTL.FENCE or by the Signal box: the two have the same effect (15 R395, Table 15.5). -/
def fenceBlk (s : State) (b : Blk) : State :=
  match b with
  | .prt n => portFence s n
  | .xlt => xltFence (s.modHdr .xlt fun h => { h with siding := true })
  | .jx c => fenceChan s c
  | .mbr => s.modHdr .mbr fun h => { h with siding := true }
  | .mvf i => s.modHdr (.mvf i) fun h => { h with siding := true }
  | .pwr => pwrFence s
  | .sys | .pin | .clk | .rst | .opt | .bkp | .flt | .upl | .hub | .ttb | .dbg => s

/-- A block that begins work with its configuration: line recovery, grants (11 R294, 10 R250). A channel that the entry handshake
holds starts no line recovery before the hold ends (14 R369). -/
def startWork (s : State) (b : Blk) : State :=
  match b with
  | .xlt => if active s .xlt then grantAll s else s
  | .jx c =>
    if !active s (.jx c) then s
    else if held s (chanBit c) then s.modChan c fun j => { j with rcvWait := true }
    else startRecovery s c
  | .sys | .pin | .clk | .rst | .opt | .bkp | .pwr | .flt | .upl | .hub | .ttb | .prt _ | .mbr | .mvf _ | .dbg => s

/-- The block leaves Siding and restarts (02 R39). -/
def unfenceBlk (s : State) (b : Blk) : State :=
  match b with
  | .prt n => portUnfence s n
  | .xlt => startWork (s.modHdr .xlt fun h => { h with siding := false }) .xlt
  | .jx c => startWork (s.modHdr (.jx c) fun h => { h with siding := false }) (.jx c)
  | .mbr =>
    let s1 := s.modHdr .mbr fun h => { h with siding := false }
    allInsts.foldl (fun a i => if (s.hdr (.mvf i)).siding then a else instSeq0 a i) s1
  | .mvf i =>
    let s1 := s.modHdr (.mvf i) fun h => { h with siding := false }
    if (s.hdr .mbr).siding then s1 else instSeq0 s1 i
  | .sys | .pin | .clk | .rst | .opt | .bkp | .pwr | .flt | .upl | .hub | .ttb | .dbg => s

/-- An UNFENCE takes effect only on a block fenced in its own right whose source bit is clear, with no fatal fault
present (02 R39, 15 R395). -/
def unfenceTakes (s : State) (b : Blk) : Bool := (s.hdr b).siding && !srcSet s b && !fatal s

/-! ### Enable -/

/-- CTL.EN changes (02 R36). What is written during a Block reset before its lk 192 is lost: the page is cleared, and the block
restarts with the "opt" value (05 Table 5.6; log 26). -/
def enChange (s : State) (b : Blk) (en : Bool) : State :=
  if (s.hdr b).inrst then
    (if (s.hdr b).rstAt + 192 ≤ s.now then s.modHdr b fun h => { h with en := en, enKept := true } else s)
  else match b with
  | .prt n => if en then portEnableEn s n else portDisableEn s n
  | .xlt => startWork (s.modHdr .xlt fun h => { h with en := en }) .xlt
  | .jx c =>
    let s1 := s.modHdr (.jx c) fun h => { h with en := en }
    if en then startWork s1 (.jx c)
    else
      let s2 := stopChan s1 c
      strobeRest { s2 with clk := { s2.clk with divNow := s2.clk.divNow.set c.val s2.clk.div[c] c.isLt } } c
  | .mbr => s.modHdr .mbr fun h => { h with en := en }
  | .mvf i => s.modHdr (.mvf i) fun h => { h with en := en }
  | .sys | .pin | .clk | .rst | .opt | .bkp | .pwr | .flt | .upl | .hub | .ttb | .dbg => s

/-! ### Block reset: lk 0 to 191 (05 Table 5.6; log 26) -/

/-- A channel's registers at their reset values. That a recovery has ended since bring-up is no register (11 R301). -/
def chanInit (s : State) (c : Chan) (first : Bool) : Jx :=
  let b := optByte s (jxOpt c)
  { cenAuto := b.getLsbD 1, autoRcv := b.getLsbD 2, firstRcv := first }

/-- RXCFG of an instance at its reset value (13 Table 13.7, 05 Table 5.8). -/
def mvfOpt (s : State) (i : Inst) : Mvf :=
  let b := optByte s (0x31 + i.val)
  { qorg := b.getLsbD 1, cmode := b.getLsbD 2 }

/-- Lk 0 of the reset of an instance (12 R323), its own or that of MBR. What it discards is kept for the record of that reset;
an MBR reset keeps the page's configuration, and the record of an instance reset that it overlaps (R327). The loss latch stays:
only the next entry clears it (13 R361; log 39). -/
def instCut (s : State) (i : Inst) (ofMbr : Bool) : State :=
  let m := s.inst i
  let s1 := txCut s i
  let c := s1.inst i
  let canc := c.held.length - m.held.length
  let fresh : Mvf :=
    { bufs := c.bufs, held := c.held, waitLim := m.waitLim, ageLim := m.ageLim, bankSize := m.bankSize,
      cmode := m.cmode, qorg := m.qorg, lossLatch := m.lossLatch }
  let s2 := if ofMbr then
      { s1.setInst i { fresh with
          errlim := m.errlim, ordA := m.ordA, ordB := m.ordB, hdrId := m.hdrId, hdrLen := m.hdrLen, txData := m.txData,
          rstRx := m.rstRx, rstStaged := m.rstStaged, rstCanc := m.rstCanc, rxDrop := m.rxDrop } with
        mbr := { s1.mbr with rstRx := s1.mbr.rstRx + m.rx.length, rstStaged := s1.mbr.rstStaged + m.staging.length,
                             rstCanc := s1.mbr.rstCanc + canc } }
    else s1.setInst i { fresh with rstRx := m.rx.length, rstStaged := m.staging.length, rstCanc := canc }
  poolChanged ((instEps i).foldl (fun a k => a.modBep k fun e => { e with pend := none, ackable := false }) s2)

/-- The header during a Block reset: reset values, STAT.SIDING as R37 says. -/
def hdrCleared (s : State) (b : Blk) (fence flr : Bool) : State :=
  s.modHdr b fun h =>
    { sev := sevReset b, en := enOpt s b, siding := h.siding, inrst := true, fenceAfter := fence, flr := flr, rstAt := s.now }

/-- A port's Block reset begins (09 R244). -/
def portCut (s : State) (n : Port) (fence flr : Bool) : State :=
  let was := pwrHigh s n
  let s1 := hdrCleared (xltLose s n) (.prt n) fence flr
  let s2 := s1.setPort n (portInit s1 n)
  let t : Fin 9 := Fin.ofNat 9 n.val
  let s3 := { s2 with ttb := { s2.ttb with now := s2.ttb.now.set t.val 0 t.isLt, ret := s2.ttb.ret.set t.val false t.isLt } }
  noteFall was s3 n

/-- A Block reset starts (05 R129). That of the power controller ends a level transition: VSEL and CUR stay (05 Table 5.7). -/
def brstStart (s : State) (b : Blk) (fence flr : Bool) : State :=
  match b with
  | .prt n => portCut s n fence flr
  | .xlt => xltResetStart (hdrCleared s .xlt fence flr)
  | .jx c =>
    let s1 := stopChan s c
    (hdrCleared s1 (.jx c) fence flr).setChan c (chanInit s1 c (s.chan c).firstRcv)
  | .mbr =>
    let s0 := { s with mbr := { s.mbr with rstRx := 0, rstStaged := 0, rstCanc := 0, rstDrop := 0 } }
    let s1 := hdrCleared (allInsts.foldl (fun a i => instCut a i true) s0) .mbr fence flr
    let m := (optByte s 0x30).getLsbD 1
    { s1 with mbr := { s1.mbr with mirror := m, mirNow := m, lost := Vector.replicate 4 0,
                                   dupCnt := Vector.replicate 4 0, rej := Vector.replicate 2 0 } }
  | .mvf i => hdrCleared (instCut s i false) (.mvf i) fence flr
  | .ttb => { hdrCleared s .ttb fence flr with ttb := {} }
  | .pwr =>
    let s1 := if s.pwr.round = .none then s
      else releaseRound { s with clk := { s.clk with armed := true } }
    { hdrCleared s1 .pwr fence flr with
      clk := { s1.clk with vphase := .idle, vsteps := [], vbusy := false }
      pwr := { s1.pwr with idleLimit := (optByte s 0x14).toNat + 256 * (optByte s 0x15).toNat, idleCnt := 0,
                           entries := 0, refused := 0, refState := 0, refReason := 0, refBlock := 0 } }
  | .flt =>
    let s1 := s.modHdr .flt fun h =>
      { h with inrst := true, fenceAfter := fence, flr := flr, rstAt := s.now, evtPnd := 0 }
    { s1 with flt := { s1.flt with lastFrame := 0, lastLk := 0, lvalid := false, lsrc := 0, lsevl := 0, fvalid := false,
                                   fsrc := 0, lblock := 0, fences := 0, react := 0 } }
  | .sys | .pin | .clk | .rst | .opt | .bkp | .upl | .hub | .dbg => s

/-! ### Block reset: lk 192 to 255 -/

/-- The record of a reset that has returned `rx` entries, discarded `staged` records and cancelled `canc`, and dropped `drop` frames
(12 Table 12.9, R323, R327). -/
def rstRecord (s : State) (rx staged canc drop : Nat) (b : Blk) : State :=
  evt { s with mbr := { s.mbr with
    rrRxret := rx, rrCanc := min 7 canc, rrBlock := BitVec.ofNat 8 (blkPage b), rrRxdrop := min 511 drop, rrStaged := staged,
    rstCnt := inc16 s.mbr.rstCnt } } .mbr 0

/-- The wrapper of an instance opens (12 R324). -/
def instOpen (s : State) (i : Inst) : State := instSeq0 (txOpen s i) i

/-- The block's registers and private state as the reset leaves them at lk 255. -/
def openRegs (s : State) (b : Blk) : State :=
  match b with
  | .prt n =>
    let s1 := trimApply s n
    let t : Fin 9 := Fin.ofNat 9 n.val
    { s1 with ttb := { s1.ttb with ret := s1.ttb.ret.set t.val true t.isLt } }
  | .xlt => xltResetMarks s
  | .jx c =>
    if (s.hdr (.jx c)).en then s
    else strobeRest { s with clk := { s.clk with divNow := s.clk.divNow.set c.val s.clk.div[c] c.isLt } } c
  | .mbr =>
    let m := s.mbr
    (allInsts.filter fun i => !(s.hdr (.mvf i)).inrst).foldl instOpen
      (rstRecord s m.rstRx m.rstStaged m.rstCanc m.rstDrop .mbr)
  | .mvf i =>
    let m := s.inst i
    (instOpen (rstRecord s m.rstRx m.rstStaged m.rstCanc m.rxDrop (.mvf i)) i).modInst i fun x =>
      { x with rxDrop := 0, rstRx := 0, rstStaged := 0, rstCanc := 0 }
  | .sys | .pin | .clk | .rst | .opt | .bkp | .pwr | .flt | .upl | .hub | .ttb | .dbg => s

/-- A block that is not kept in Siding starts work (05 Table 5.6). -/
def openWork (s : State) (b : Blk) : State :=
  match b with
  | .prt n => if (s.hdr (.prt n)).en then portApply s n else s
  | .xlt | .jx _ => startWork s b
  | .pwr => pwrRestart s
  | .sys | .pin | .clk | .rst | .opt | .bkp | .flt | .upl | .hub | .ttb | .mbr | .mvf _ | .dbg => s

/-- The Signal box fences a unit as a FENCE does (R395): one in Block reset stays in Siding when the reset ends (02 R37). A unit that
is in Siding stays there; FENCES counts the fences applied (15 Table 15.11). -/
def boxFence (s : State) (b : Blk) : State :=
  let s0 := if (s.hdr b).inrst then s.modHdr b fun h => { h with fenceAfter := true } else s
  if (s.hdr b).siding then s0
  else
    let s1 := fenceBlk s0 b
    { s1 with flt := { s1.flt with fences := inc16 s1.flt.fences } }

/-- A unit the Signal box can fence, by its own source bit (15 Table 15.1, R397). -/
def refence (s : State) (b : Blk) : Bool :=
  match b with
  | .prt _ | .xlt | .jx _ | .mbr | .mvf _ => srcSet s b || fatal s
  | .pwr => srcSet s .clk || srcSet s .pwr || fatal s
  | .sys | .pin | .clk | .rst | .opt | .bkp | .flt | .upl | .hub | .ttb | .dbg => false

/-- The pins of a port leave SF at lk 255; a fall of PWRENn then starts the hold of 09 R223. -/
def openFall (was : Bool) (s : State) (b : Blk) : State :=
  match b with
  | .prt n => noteFall was s n
  | .sys | .pin | .clk | .rst | .opt | .bkp | .pwr | .flt | .upl | .hub | .ttb | .xlt | .jx _ | .mbr | .mvf _ | .dbg => s

/-- PWRENn of a port page. -/
def pageHigh (s : State) (b : Blk) : Bool :=
  match b with
  | .prt n => pwrHigh s n
  | .sys | .pin | .clk | .rst | .opt | .bkp | .pwr | .flt | .upl | .hub | .ttb | .xlt | .jx _ | .mbr | .mvf _ | .dbg => false

/-- Lk 255: the wrapper opens with CTL.EN at its "opt" value; a block that a FENCE (02 R37) or R397 keeps in Siding is fenced and
starts no work; RST_BLKREC and BLKDONE. -/
def brstOpen (s : State) (b : Blk) : State :=
  let h := s.hdr b
  let s1 := s.modHdr b fun x =>
    { x with en := if h.enKept then h.en else enOpt s b, enKept := false, inrst := false, fenceAfter := false, flr := false,
             siding := false }
  let s2 := openRegs s1 b
  let s3 := if h.fenceAfter then fenceBlk s2 b else if refence s b then boxFence s2 b else openWork s2 b
  let s4 := openFall (pageHigh s b) s3 b
  evt { s4 with rst := { s4.rst with
    blkCount := inc16 s4.rst.blkCount, blkFlr := h.flr, blkBlock := BitVec.ofNat 8 (blkPage b) } } .rst 2

/-! ### CTL (02 R36, R37) -/

/-- A write of CTL. -/
def ctlWrite (s : State) (b : Blk) (w : Word) : State :=
  let brst := bitAt w 8
  let fence := bitAt w 9
  let unfence := bitAt w 10
  match ctlClass b with
  | .none => s
  | .reset => if brst && !(s.hdr b).inrst then brstStart s b false false else s
  | .full =>
    if brst && !(s.hdr b).inrst then brstStart s b fence false
    else if fence then
      let s1 := if (s.hdr b).inrst then s.modHdr b fun h => { h with fenceAfter := true } else s
      fenceBlk s1 b
    else if unfence then
      if unfenceTakes s b then unfenceBlk (s.modHdr b fun h => { h with fenceAfter := false }) b else s
    else if brst then s
    else if bitAt w 0 = (s.hdr b).en then s
    else enChange s b (bitAt w 0)

/-- BRST, with FENCE and UNFENCE of the same write (R37). -/
def execBrst (b : Blk) (fence unfence : Bool) (s : State) : Out :=
  coreCmd (fun t => ctlWrite t b (pack [(8, 1), (9, b2n fence), (10, b2n unfence)])) s

/-- BLOCK_RESET_OPEN: lk 255 (R129). -/
def execBlockResetOpen (b : Blk) (s : State) : Out :=
  if (s.hdr b).inrst then coreCmd (fun t => brstOpen t b) s else .next s

/-- FENCE. -/
def execFence (b : Blk) (s : State) : Out := coreCmd (fun t => ctlWrite t b (oneBit 9)) s

/-- UNFENCE. -/
def execUnfence (b : Blk) (s : State) : Out := coreCmd (fun t => ctlWrite t b (oneBit 10)) s

/-- CTL_EN. -/
def execCtlEn (b : Blk) (en : Bool) (s : State) : Out := coreCmd (fun t => ctlWrite t b (pack [(0, b2n en)])) s

end Sys2Proof.Machine
end

