-- ==== Sys2Proof/Machine/Pads.lean ====
section
/-! DEFINITION. What the hub does at its pins: the functional state of each configurable pin, the levels that the pads present
and their samples (03 Table 3.6, R67, R76), the forwarded clocks (04 R81), the strobes (04 R87, R88), and UD0 outside packets
(06 R162, R164, 14 Table 14.6); and what passes with the lk at the pins and on the buses. -/

namespace Sys2Proof.Machine

/-! ### Functional states (03 Table 3.6) -/

/-- What the hub drives on DDn outside packets: the reset and resume levels (09 R227, R235), else the weak pull-down. -/
def ddPad (s : State) (n : Port) : Pad :=
  match (s.port n).drive with
  | .forced | .errorLow => .low
  | .resume => .high
  | .none | .window | .answer | .quiet => .down

/-- FLOW_x_N: high while an owner is disabled, else by the watermarks (13 R362). -/
def flowLevel (s : State) (c : Chan) : Bool :=
  if (s.hdr (.jx c)).en && (s.hdr .mbr).en then !s.mbr.flow[c] else true

/-- MSG_Sx: high while the channel is disabled, else the strobe (04 R87). -/
def strobeLevel (s : State) (c : Chan) : Bool := !(s.hdr (.jx c)).en || s.clk.strobe[c].high

/-- The functional state of a pin. -/
def funcPad (s : State) : CPin → Pad
  | .pwren n => padDrive (pwrHigh s n)
  | .flow c => padDrive (flowLevel s c)
  | .dd n => ddPad s n
  | .msgS c => padDrive (strobeLevel s c)
  | .vsel0 => padDrive (s.clk.vcode.val.testBit 0)
  | .vsel1 => padDrive (s.clk.vcode.val.testBit 1)
  | .fault => faultPad s

/-- The level of a pin, where the spec defines it. The VSEL pads of a released power controller show its code, whether it drives
them or has left them to their SF code (15 R396). -/
def pinLevel (s : State) (p : CPin) : Option Bool :=
  padLevelOf s p (if p.isVsel && released s .pwr then funcPad s p else padNow s p (funcPad s p))

/-- DCLKn carries the forwarded clock; else the hub drives it low, or presents high impedance below a valid rail (04 R81, R79;
03 R67). It starts and stops on whole periods. -/
def dclkRuns (s : State) (n : Port) : Bool :=
  let h := s.hdr (.prt n)
  s.pins.railL && released s (.prt n) && h.en && !h.inrst && !h.siding && s.pwr.clockOn && !s.pwr.gated &&
    match (s.port n).state with
    | .dsc | .rst | .ena | .sus | .rsm | .dsb => true
    | .off | .pwg | .sid => false

/-- The hub asks for the clock on UD0: a source is latched while UCLK is stopped (14 R380, 06 R164). -/
def wakeRequest (s : State) : Bool := !s.pwr.clockOn && s.pwr.low.isSome && decide (s.aon.latched ≠ 0)

/-- The exit hold of Retain and Heron (14 Table 14.6); an abort has none (R373). -/
def exitHold (s : State) : Bool := s.pwr.clockOn && s.pwr.exit == .pgood

/-- The hub drives UD0 high outside packets and its chirp: the wake request, the exit hold, its own remote wake (06 R162). -/
def ud0High (s : State) : Bool := wakeRequest s || exitHold s || decide (s.upl.wakeLk ≠ 0)

/-! ### Samples of the pads (03 R76) -/

/-- The pins of 0x015C with their bits. -/
def padPins : List (Nat × CPin) :=
  (allPorts.map fun n => (n.val, CPin.pwren n)) ++
    [(8, .flow 0), (9, .flow 1), (10, .vsel0), (11, .vsel1), (12, .fault), (13, .msgS 0), (14, .msgS 1)]

/-- The DDn pins with their bits. -/
def laneBits : List (Nat × CPin) := allPorts.map fun n => (n.val, CPin.dd n)

/-- One bit for each pin of a list whose level satisfies `f`. -/
def levelBits (s : State) (l : List (Nat × CPin)) (f : Option Bool → Bool) : Nat :=
  (l.map fun x => b2n (f (pinLevel s x.2)) <<< x.1).sum

/-- What the pads present now. -/
def padSample (s : State) : PadSample where
  out := BitVec.ofNat 16 (levelBits s padPins (· == some true))
  known := BitVec.ofNat 16 (levelBits s padPins Option.isSome)
  dd := BitVec.ofNat 8 (levelBits s laneBits (· == some true))
  ddKnown := BitVec.ofNat 8 (levelBits s laneBits Option.isSome)
  ud0 := ud0High s

/-- A rising edge of UCLK samples the pads as they stand. -/
def samplePads (s : State) : State :=
  { s with pins := { s.pins with pads := #v[padSample s, s.pins.pads[0], s.pins.pads[1]] } }

/-- Several lk pass in which the pads stay as they stand. -/
def fillPads (s : State) : State := { s with pins := { s.pins with pads := Vector.replicate 3 (padSample s) } }

/-! ### The strobes (04 R79, R87, R88; 11 R274) -/

/-- The channel's strobe is driven by its divider. -/
def strobeOn (s : State) (c : Chan) : Bool := active s (.jx c) && released s (.jx c) && (s.chan c).bus ≠ .stopped

/-- A strobe `k` lk after a falling edge, at the half-period `half`. -/
def strobeFrom (half k : Nat) : Strobe :=
  let ph := k % (2 * half)
  if ph < half then ⟨false, ph, half⟩ else ⟨true, ph - half, half⟩

/-- A strobe `k` lk later, with the falling and the rising edges that passed. A strobe period ends at a falling edge, and the next
has the half-period `next` (04 R88). With `hold` it stops in the first lk of a high phase (14 R369). -/
def strobeAfter (b : Strobe) (next : Nat) (hold : Bool) (k : Nat) : Strobe × Nat × Nat :=
  let rest := b.half - b.ran
  if b.high && hold then (b, 0, 0)
  else if k < rest then ({ b with ran := b.ran + k }, 0, 0)
  else if b.high then
    (strobeFrom next (k - rest), 1 + (k - rest) / (2 * next), (k - rest + next) / (2 * next))
  else if hold || decide (k - rest < b.half) then
    (⟨true, if hold then 0 else k - rest, b.half⟩, 0, 1)
  else
    let r := k - rest - b.half
    (strobeFrom next r, 1 + r / (2 * next), 1 + (r + next) / (2 * next))

/-- Bus-off recovery counts runs of 11 recessive samples (11 R293): every sample of an idle bus is recessive; those of frames are not
known, and what they count is a free value (log 4). -/
def runPass (s : State) (c : Chan) (samples : Nat) : State :=
  let j := s.chan c
  let n := j.recs + samples
  if !(j.busOff && j.counting) || samples = 0 then s
  else if j.bus = .idle then s.modChan c fun x => { x with runs := min 128 (j.runs + n / 11), recs := n % 11 }
  else
    let f := (Config.freeWord s.free).toNat
    (nextFree s).modChan c fun x =>
      { x with runs := min 128 (j.runs + f % (n / 11 + 1)), recs := f / 512 % (min 10 n + 1) }

/-- `k` lk of a channel: its strobe, the idle bits that it waits, and its bus-off recovery. -/
def chanPass (s : State) (k : Nat) (c : Chan) : State :=
  if !strobeOn s c then s
  else
    let r := strobeAfter s.clk.strobe[c] (s.clk.divNow[c] / 2) (held s (chanBit c)) k
    let s1 := { s with clk := { s.clk with strobe := s.clk.strobe.set c.val r.1 c.isLt } }
    let s2 := s1.modChan c fun j => { j with waitBits := if j.bus = .idle then j.waitBits - r.2.1 else j.waitBits }
    runPass s2 c r.2.2

/-- The lk that samples the start-of-frame bit has come: the frame on the wire has its timestamp (04 R94). -/
def stampSof (s : State) (c : Chan) : State :=
  let j := s.chan c
  if (j.rxOpen || j.wire ≠ .none) && j.stamp.isNone && decide (j.sofAt ≤ s.now) then
    s.modChan c fun x => { x with stamp := some (cellAt s j.sofAt) }
  else s

/-- What a held participant has put off starts when its hold has ended (14 R369). -/
def lateStart (s : State) : State :=
  let s1 := allChans.foldl (fun a c =>
    if (a.chan c).rcvWait && !held a (chanBit c) && active a (.jx c) then startRecovery a c else a) s
  allPorts.foldl resumeWaiting s1

end Sys2Proof.Machine
end

