-- ==== Sys2Proof/Machine/Reset.lean ====
section
/-! DEFINITION. The reset controller: sources and reaches, what each reach clears, bring-up, the watchdog and the cause
record (05, 03 §3.5, 04 R93, R103). -/

namespace Sys2Proof.Machine

/-! ### Sources and reaches (05 Table 5.1) -/

def srcCode : Source → Nat
  | .por => 0 | .bor => 1 | .pin => 2 | .wdg => 3 | .clf => 4 | .lkp => 5 | .swr => 6 | .dbg => 7

def srcReach : Source → Reach
  | .por | .bor => .whole
  | .pin | .wdg | .clf | .lkp => .device
  | .swr | .dbg => .core

def reachCode : Reach → BitVec 2
  | .core => 1 | .device => 2 | .whole => 3

/-- The wider of two reaches (R119). -/
def wider (a b : Reach) : Reach := if (reachCode a).toNat < (reachCode b).toNat then b else a

/-- A level source is asserted (R106). -/
def levelOn (s : State) : Bool := s.rst.porOn || s.rst.borCoreOn || s.rst.borIoOn || s.rst.clfOn

/-! ### What a reset clears (05 Table 5.2) -/

/-- A fuse pulse cut short: a fuse that read 0 reads a free value (03 R71; log 8). -/
def cutFuse (s : State) : State :=
  match s.pins.fpCmd with
  | some (.program bit) =>
    let w : Fin 6 := Fin.ofNat 6 (bit / 32)
    if bitAt s.pins.otp[w] (bit % 32) || !Config.freeFuse s.free then nextFree s
    else nextFree { s with pins := { s.pins with otp := s.pins.otp.set w.val (s.pins.otp[w] ||| oneBit (bit % 32)) w.isLt } }
  | some (.verify _) => s
  | none => s

/-- How a cut-short codeword decodes (log 9). -/
def condOf (n : Nat) : CwCond := if n = 0 then .clean else if n = 1 then .corrected else .uncorrectable

/-- An option program command cut short (05 R137; log 9). -/
def cutOpt (s : State) : State :=
  match s.opt.cmd with
  | some (.program cw data) =>
    let c : Codeword := ⟨Config.freeCodeword s.free, condOf (Config.freeCond s.free), some data⟩
    nextFree { s with opt := { s.opt with otp := s.opt.otp.set cw.val c cw.isLt } }
  | some (.verify _) => s
  | none => s

/-- The pages in AON through a Core or Device reset: contents stay, lock bits and PIN_FPSTAT clear (Table 5.2, R45). -/
def keptPins (p : Pins) : Pins := { p with fpCmd := none, fpLastBit := 0, fpRefused := false, fpValue := false }

/-- The link and the hub function's identity through a Core reset that keeps the link (R108). -/
def keptUpl (s : State) : Upl := { phase := .up, connect := false, linkup := true, x2 := s.upl.x2 }

def keptHub (s : State) : Hub :=
  let r : Vector (BitVec 4) 128 := (Vector.replicate 128 0xF#4).set 0 8#4
  { addr := s.hub.addr, conf := s.hub.conf, remoteWake := s.hub.remoteWake, ep1Fresh := true,
    routes := r.set s.hub.addr.toNat 8#4 s.hub.addr.isLt }

/-- Everything a Core or wider reset clears is at its reset value; what Table 5.2 keeps through Core and Device stays, the wake latch
among it, which is armed until the next service (14 R380; log 22). A Whole reset clears the AON part in B1. -/
def cleared (s : State) (keepLink : Bool) : State :=
  { State.reset with
    pins := keptPins s.pins
    rst := { s.rst with borlow := false, blkCount := 0, blkFlr := false, blkBlock := 0, wdgEn := false, wdgBadwarn := false,
                        wdgLock := false, wdgPeriod := 0, wdgWarn := 0, wdgArmed := false, wdgFrames := 0,
                        wdgWarned := false, swrKey := false, dbgHeld := false, memInit := false, group := 0 }
    clk := { armed := false, vbusy := true, vphase := .start, ctRun := false, cur := s.clk.cur, vcode := s.clk.vcode,
             req := s.clk.cur }
    opt := { otp := s.opt.otp, loaded := false }
    bkp := { s.bkp with lock := false }
    upl := if keepLink then keptUpl s else { connect := false }
    hub := if keepLink then keptHub s else {}
    ep0 := Vector.replicate 2 { fresh := keepLink }
    beps := Vector.replicate 12 { fresh := keepLink }
    pwr := { clockOn := s.pwr.clockOn }
    aon := s.aon
    mem := s.mem
    parBad := s.parBad
    now := s.now
    free := s.free
    stamp := s.stamp
    pending := s.pending }

/-- A source asserts (R105, R119–R122). The PIN page is kept through Core and Device (03 §3.9). -/
def assertSource (s : State) (src : Source) : State :=
  let fresh : Bool := s.rst.phase == .run
  let isWhole : Bool := srcReach src == .whole
  let reach := if fresh then srcReach src else wider s.rst.reach (srcReach src)
  let keep := (if fresh then s.upl.linkup else s.rst.keepLink) && reach == .core
  let phase : RstPhase := if s.rst.phase == .b1 || isWhole then .b1 else .b2
  let s1 := cleared (cutOpt (cutFuse s)) keep
  let s2 := if reach == .whole then s1 else s1.setHdr .pin (s.hdr .pin)
  { s2 with
    rst := { s1.rst with
      phase := phase, reach := reach, keepLink := keep, rstDriven := s.pins.railG,
      sources := if fresh then [src] else if s.rst.sources.contains src then s.rst.sources else s.rst.sources ++ [src],
      causeFirst := if fresh then BitVec.ofNat 3 (srcCode src) else s.rst.causeFirst,
      causeReach := reachCode reach,
      causeSrc := s.rst.causeSrc ||| BitVec.ofNat 8 (1 <<< srcCode src) }
    pins := { s1.pins with
      sensedL := s1.pins.sensedL && !isWhole, sensedG := s1.pins.sensedG && !isWhole,
      porHiZ := s1.pins.porHiZ || src == .por } }

/-! ### Rails, power-on and brown-out (03 R61, 05 R105, R112, R114) -/

/-- A rail's flag. Pins on VDDIO_G that lost it stay at hi-Z until the next sense (03 R61). -/
def setRail (s : State) (r : Rail) (v : Bool) : State :=
  match r with
  | .aon => { s with pins := { s.pins with railAon := v } }
  | .core => { s with pins := { s.pins with railCore := v } }
  | .ioL => { s with pins := { s.pins with railL := v } }
  | .ioG => { s with pins := { s.pins with railG := v, gHiZ := s.pins.gHiZ || !v } }

/-- The hub drives RST_N low in a reset as soon as VDDIO_G is valid (03 R66). -/
def driveRst (s : State) : State :=
  if (s.rst.phase == .b1 || s.rst.phase == .b2) && s.pins.railG then { s with rst := { s.rst with rstDriven := true } } else s

/-- RAIL_VALID. -/
def execRailValid (r : Rail) (s : State) : Out := done (driveRst (setRail s r true))

/-- POR. -/
def execPor (s : State) : Out :=
  let s1 := assertSource (setRail s .aon false) .por
  done { s1 with rst := { s1.rst with porOn := true } }

/-- POR_RELEASE. -/
def execPorRelease (s : State) : Out :=
  let s1 := setRail s .aon true
  done { s1 with rst := { s1.rst with porOn := false } }

/-- BOR: the hub monitors VDD_CORE and VDDIO_G (Table 5.3). -/
def execBor (r : Rail) (s : State) : Out :=
  match r with
  | .core =>
    let s1 := assertSource (setRail s .core false) .bor
    done { s1 with rst := { s1.rst with borCoreOn := true } }
  | .ioG =>
    let s1 := assertSource (setRail s .ioG false) .bor
    done { s1 with rst := { s1.rst with borIoOn := true } }
  | .aon | .ioL => .next s

/-- BOR_RELEASE. -/
def execBorRelease (r : Rail) (s : State) : Out :=
  match r with
  | .core =>
    let s1 := setRail s .core true
    done { s1 with rst := { s1.rst with borCoreOn := false } }
  | .ioG =>
    let s1 := setRail s .ioG true
    done (driveRst { s1 with rst := { s1.rst with borIoOn := false } })
  | .aon | .ioL => .next s

/-! ### The other sources (05 R106, R110, R123, R126–R128; 04 R96) -/

/-- PIN: the filter acts only on lows that begin while the hub does not drive RST_N (R110); `duringDrive`: this one began while it
drove. -/
def execPin (duringDrive : Bool) (s : State) : Out := if duringDrive then .next s else done (assertSource s .pin)

/-- PERIOD in force: 0 acts as 1 (R123). -/
def wdgLimit (s : State) : Nat := if s.rst.wdgPeriod = 0 then 1 else s.rst.wdgPeriod

/-- WDG, at a frame boundary. -/
def execWdg (s : State) : Out :=
  if coreRuns s && s.rst.wdgEn && decide (wdgLimit s ≤ s.rst.wdgFrames) then done (assertSource s .wdg)
  else .next s

/-- The warning point T (R123). -/
def warnPoint (s : State) : Nat := wdgLimit s - s.rst.wdgWarn

/-- WDGWARN: once per watchdog period. -/
def execWdgwarn (s : State) : Out :=
  if s.rst.wdgWarn ≠ 0 && !s.rst.wdgWarned && s.rst.wdgFrames = warnPoint s then
    coreCmd (fun t => evt { t with rst := { t.rst with wdgWarned := true } } .rst 0) s
  else .next s

/-- After a write of WARN or PERIOD: a point at or below FRAMES raises no warning before the next period (R123). -/
def wdgRearm (s : State) : State :=
  if warnPoint s ≤ s.rst.wdgFrames then { s with rst := { s.rst with wdgWarned := true } } else s

/-- CLF: the armed detector sees no edge (04 R96). -/
def execClf (s : State) : Out :=
  if s.clk.armed then
    let s1 := assertSource { s with pwr := { s.pwr with clockOn := false } } .clf
    done { s1 with rst := { s1.rst with clfOn := true } }
  else .next s

/-- CLF_RELEASE: the first UCLK edge. -/
def execClfRelease (s : State) : Out :=
  if s.rst.clfOn then done { s with rst := { s.rst with clfOn := false }, pwr := { s.pwr with clockOn := true } } else .next s

/-- LKP with its record (R126, Table 5.10). -/
def assertLkp (s : State) (kind : BitVec 2) (block : Byte) : State :=
  let s1 := assertSource s .lkp
  { s1 with rst := { s1.rst with fesc := kind = 2, lkpKind := kind, lkpBlock := block } }

/-- LKP. -/
def execLkp (kind : LkpKind) (block : Byte) (s : State) : Out :=
  match kind with
  | .timeout => done (assertLkp s 0 block)
  | .parity => done (assertLkp s 1 block)

/-- A write of RST_SWR (R127). -/
def swrWrite (s : State) (key : Half) : State :=
  if key = 0x5357 then { s with rst := { s.rst with swrKey := true } } else s

/-- RST_SWR. -/
def execRstSwr (key : Half) (s : State) : Out := coreCmd (fun t => swrWrite t key) s

/-- SWR: the DATAZ that completes the REG_WRITE has been sent (R127). -/
def execSwr (s : State) : Out :=
  if coreRuns s && s.rst.swrKey && (s.ep .hub).stage = .none then done (assertSource s .swr) else .next s

/-- DBG: the status DATAZ of an accepted DBG_RESET has been sent (R128). -/
def execDbg (s : State) : Out :=
  if coreRuns s && s.rst.dbgHeld && (s.ep .hub).stage = .none then done (assertSource s .dbg) else .next s

/-! ### Watchdog kicks (05 R124) -/

/-- A bad kick. -/
def badKick (s : State) : State :=
  if s.rst.wdgBadwarn then evt { s with rst := { s.rst with wdgArmed := false } } .rst 1 else assertSource s .wdg

/-- A write of RST_WDG_KICK. -/
def kickWrite (s : State) (v : Byte) : State :=
  if !s.rst.wdgEn then s
  else if v = 0x5A && !s.rst.wdgArmed then { s with rst := { s.rst with wdgArmed := true } }
  else if v = 0xA5 && s.rst.wdgArmed then
    { s with rst := { s.rst with wdgArmed := false, wdgFrames := 0, wdgWarned := false } }
  else badKick s

/-- WDG_KICK_FIRST. -/
def execWdgKickFirst (s : State) : Out := coreCmd (fun t => kickWrite t 0x5A) s

/-- WDG_KICK_SECOND. -/
def execWdgKickSecond (s : State) : Out := coreCmd (fun t => kickWrite t 0xA5) s

/-! ### Bring-up: B1 to B3 (05 Table 5.4, R111, R116, R120, R122) -/

/-- The words of the fuses are sensed. -/
def senseFuses (s : State) : State := { s with pins := { s.pins with fuse := s.pins.otp, lockProg := false } }

/-- The sense of the pins whose rail has just become valid, ahead of the rest of B1: those on VDDIO_L after POR, those on VDDIO_G
once that rail is valid (03 R61). -/
def senseRisen (s : State) : State :=
  let l := s.pins.porHiZ
  let g := s.pins.railG && (s.pins.porHiZ || s.pins.gHiZ)
  if l || g then
    let s1 := senseFuses s
    { s1 with pins := { s1.pins with sensedL := s1.pins.sensedL || l, sensedG := s1.pins.sensedG || g } }
  else s

/-- B1 ends: AON is cleared, every pin is sensed, and the cause record holds the sources of this reset (R122). -/
def endB1 (s : State) : State :=
  let lkp := s.rst.sources.contains .lkp
  let s1 := senseFuses s
  { s1 with
    pins := { s1.pins with sensedL := true, sensedG := true, porHiZ := false, gHiZ := false }
    aon := {}
    bkp := {}
    rst := { s.rst with
      phase := .b2, rstDriven := true, count := 0,
      causeSrc := s.rst.sources.foldl (fun a x => a ||| BitVec.ofNat 8 (1 <<< srcCode x)) 0,
      causeFirst := BitVec.ofNat 3 (srcCode (s.rst.sources.headD .por)), causeReach := 3,
      fesc := lkp && s.rst.fesc, lkpKind := if lkp then s.rst.lkpKind else 0,
      lkpBlock := if lkp then s.rst.lkpBlock else 0 } }

/-- FUSE_SENSE: the sense needs VDD_AON valid and POR released; B1 needs every rail valid and BOR released as well (R116). -/
def execFuseSense (s : State) : Out :=
  if s.rst.phase == .b1 && !s.rst.porOn && s.pins.railAon then
    done (if s.pins.railG && !s.rst.borCoreOn && !s.rst.borIoOn then endB1 s else senseRisen s)
  else .next s

/-- STRETCH_END: every level source has released (R111). -/
def execStretchEnd (s : State) : Out :=
  if s.rst.phase == .b2 && !levelOn s && s.pins.railG then
    done { s with rst := { s.rst with phase := .b2Released, rstDriven := false } }
  else .next s

/-- RESET_PHASE_END: RST_N reads high. -/
def execResetPhaseEnd (s : State) : Out :=
  if s.rst.phase == .b2Released then done { s with rst := { s.rst with phase := .b3 } } else .next s

/-- EDGE_WAIT_END: the 256th rising edge; the clock-loss detector arms (04 R95). -/
def execEdgeWaitEnd (s : State) : Out :=
  if s.rst.phase == .b3 && s.pwr.clockOn then
    done { s with rst := { s.rst with phase := .b4, group := 0 }, clk := { s.clk with armed := true } }
  else .next s

/-! ### Bring-up: B4 (05 Table 5.5, R117) -/

/-- The safe-default image as words (05 Table 5.8): FORMAT 1, UID all ones, WDGOPT 1, WDGPER 0x2000, ports enabled, the
strobe dividers 4096. -/
def safeImage : Vector Word 32 :=
  #v[0x00000001, 0, 0xFFFFFFFF, 0x0000FFFF, 0x00200001, 0, 0x01010101, 0x01010101, 0x00100000, 0, 0x00100000, 0, 0, 0, 0, 0,
     0, 0, 0, 0, 0, 0, 0, 0, 0, 0, 0, 0, 0, 0, 0, 0]

/-- The decoded image as words, byte 4k in bits [7:0] of word k. -/
def decodedImage (o : Opt) : Vector Word 32 :=
  Vector.ofFn fun k =>
    let c : Fin 16 := ⟨k.val / 2, by omega⟩
    if k.val % 2 = 0 then o.otp[c].data.setWidth 32 else (o.otp[c].data >>> 32).setWidth 32

/-- The mask of the codewords with a condition. -/
def cwMask (o : Opt) (c : CwCond) : Half :=
  (List.finRange 16).foldl (fun (a : Half) k => if o.otp[k].cond = c then a ||| BitVec.ofNat 16 (1 <<< k.val) else a) 0

/-- The option loader (R134): OPT status, the shadow and the UID. Where codeword 0, which holds FORMAT, is itself uncorrectable, its
FORMAT is not known and the spec does not say what FMTBAD reads; the model has 0 (DESIGN CHOICE, log 9). -/
def loadShadow (s : State) : State :=
  let unc := cwMask s.opt .uncorrectable
  let fmt := s.opt.otp[0].data.setWidth 8
  let fmtbad := s.opt.otp[0].cond ≠ .uncorrectable && fmt ≠ 0 && fmt ≠ 1
  let fallback := unc ≠ 0 || fmtbad
  { s with
    opt := { s.opt with
      shadow := if fallback then safeImage else decodedImage s.opt, loaded := true, corr := cwMask s.opt .corrected ≠ 0,
      fallback := fallback, fmtbad := fmtbad, olocked := s.opt.otp[15].cond ≠ .uncorrectable && s.opt.otp[15].data.getLsbD 63,
      cwUnc := unc, cwCor := cwMask s.opt .corrected }
    sys := { s.sys with uid := if unc ≠ 0 then BitVec.allOnes 48 else s.opt.otp[1].data.setWidth 48, uidBad := unc ≠ 0 } }

/-- Every register with an "opt" reset value takes it (R134, R125). -/
def loadOpts (s : State) : State :=
  let b (k : Nat) : Byte := optByte s k
  let wdg := (b 0x10).getLsbD 0
  let x1 := (b 0x13).getLsbD 0
  let mir := (b 0x30).getLsbD 1
  { s with
    hdrs := s.hdrs.mapIdx fun k h => { h with en := enOpt s (blkOf k) }
    rst := { s.rst with wdgEn := wdg, wdgBadwarn := (b 0x10).getLsbD 1, wdgLock := wdg,
                        wdgPeriod := (b 0x11).toNat + 256 * (b 0x12).toNat }
    upl := { s.upl with x1Only := x1, x1Now := x1 }
    pwr := { s.pwr with idleLimit := (b 0x14).toNat + 256 * (b 0x15).toNat }
    clk := { s.clk with
      div := #v[divOpt s 0, divOpt s 1], divNow := #v[divOpt s 0, divOpt s 1]
      strobe := #v[⟨true, 0, divOpt s 0 / 2⟩, ⟨true, 0, divOpt s 1 / 2⟩] }
    ports := #v[portInit s 0, portInit s 1, portInit s 2, portInit s 3, portInit s 4, portInit s 5, portInit s 6, portInit s 7]
    jx := #v[chanInit s 0 true, chanInit s 1 true]
    mbr := { s.mbr with mirror := mir, mirNow := mir }
    mvf := #v[mvfOpt s 0, mvfOpt s 1, mvfOpt s 2, mvfOpt s 3] }

/-- The power controller's starting code and its PGOOD wait (04 R103). `pads`: what a VSEL pad reads whose level PU and the board
leave open. -/
def startPower (s : State) (pads : Fin 4) : State :=
  let whole : Bool := s.rst.reach == .whole
  let code := if whole then vselStart s pads else s.clk.vcode
  let cur := if whole then codeLevelOf code else curFor s.clk.cur code
  { s with clk := { s.clk with vcode := code, cur := cur, req := cur, vbusy := true, vphase := .start, vsteps := [] } }

/-- The blocks of release group `n` run: released, with UCLK running and the core clock not gated. -/
def groupRuns (s : State) (n : Nat) : Bool :=
  (s.rst.phase == .run || (s.rst.phase == .b4 && decide (n ≤ s.rst.group))) && s.pwr.clockOn && !s.pwr.gated

/-- A happening of a block of group `n`. -/
def groupCmd (n : Nat) (f : State → State) (s : State) : Out := if groupRuns s n then done (f s) else .next s

/-- GROUP_1_RELEASE: lk 600. -/
def execGroup1Release (pads : Fin 4) (s : State) : Out :=
  if s.rst.phase == .b4 && s.rst.group = 0 then
    let s1 := startPower (loadOpts (loadShadow s)) pads
    done { s1 with rst := { s1.rst with group := 1, startedAt := s1.now } }
  else .next s

/-- MEMORY_INITIALISATION_END: lk 2,048. -/
def execMemoryInitialisationEnd (s : State) : Out :=
  if s.rst.phase == .b4 && s.rst.group = 1 && !s.rst.memInit then
    let hi := if s.rst.reach == .whole then 0x4400 else 0x4000
    done { s with
      mem := memZero s.mem 0x3000 hi
      parBad := s.parBad.filter fun a => decide (a < 0x3000) || decide (hi ≤ a)
      rst := { s.rst with memInit := true } }
  else .next s

/-- GROUP_2_RELEASE: lk 2,048 has passed and VBUSY is 0. Without a kept link the upstream port starts unconnected, with its
connect drive on (06). -/
def execGroup2Release (s : State) : Out :=
  if s.rst.phase == .b4 && s.rst.group = 1 && s.rst.memInit && !s.clk.vbusy then
    done { s with rst := { s.rst with group := 2 }, upl := { s.upl with connect := !s.rst.keepLink } }
  else .next s

/-- GROUP_3_RELEASE: each enabled port applies its settings (09 R218). -/
def execGroup3Release (s : State) : Out :=
  if s.rst.phase == .b4 && s.rst.group = 2 then
    let s1 := { s with rst := { s.rst with group := 3 } }
    done (allPorts.foldl (fun a n => if (a.hdr (.prt n)).en then portApply a n else a) s1)
  else .next s

/-- GROUP_4_RELEASE: an enabled channel starts line recovery (11 R294). -/
def execGroup4Release (s : State) : Out :=
  if s.rst.phase == .b4 && s.rst.group = 3 then
    let s1 := { s with rst := { s.rst with group := 4 } }
    done (allChans.foldl (fun a c => startWork a (.jx c)) s1)
  else .next s

/-- GROUP_5_RELEASE: bring-up is complete; `length` is the lk of B4. A FRAME_START that was captured in B4 has set CTVALID; cell
time starts again at 0 : 0 all the same, and whether CTVALID stays at 1 then the spec does not say: it stays (DESIGN CHOICE,
log 44). The strobes have run since group 4. The wake latch is disarmed: service begins (14 R380; log 22). -/
def execGroup5Release (length : Nat) (s : State) : Out :=
  if s.rst.phase == .b4 && s.rst.group = 4 then
    let s1 := allInsts.foldl (fun a i => a.modInst i fun m => { m with lossLatch := true }) s
    done (fillPads <| disarmLatch <| allChans.foldl (fun a c => chanPass a 16 c) { s1 with
      rst := { s1.rst with
        group := 5, phase := .run, keepLink := false, bringup := min 0xFFFF length,
        count := if s1.rst.reach == .whole then s1.rst.count else inc16 s1.rst.count }
      clk := { s1.clk with ctRun := true, frame := 0, lk := 0, fsSeen := false, fsChecked := false } })
  else .next s

/-- The hub at the assertion of POR, before any rail is valid: where a supply ramp begins. -/
def State.powerOn : State :=
  let s1 := assertSource { State.reset with pins := { railAon := false, railCore := false, railL := false, railG := false, sensedL := false, sensedG := false } } .por
  { s1 with rst := { s1.rst with porOn := true }, pwr := { s1.pwr with clockOn := true } }

end Sys2Proof.Machine
end

