-- ==== Sys2Proof/Machine/Fault.lean ====
section
/-! DEFINITION. The Signal box: latches, reactions, clears and PWRUNF (15). -/

namespace Sys2Proof.Machine

/-- The latch of a source: its bit and LSEV (R389, R392), and FSRC, the first source since SRC was last all zero (Table 15.11). -/
def latchSrc (s : State) (k : Fin 21) (sev : Nat) : State :=
  { s with flt := { s.flt with
    src := s.flt.src ||| BitVec.ofNat 21 (1 <<< k.val), lsev := s.flt.lsev.set k.val (BitVec.ofNat 2 sev) k.isLt,
    fvalid := s.flt.fvalid || decide (s.flt.src = 0), fsrc := if s.flt.src = 0 then BitVec.ofNat 5 k.val else s.flt.fsrc } }

/-- The record of a reaction (R393, Table 15.11). -/
def recordReact (s : State) (k : Fin 21) (sev : Nat) : State :=
  { s with flt := { s.flt with
    lastFrame := s.clk.frame, lastLk := s.clk.lk, lvalid := true, lsrc := BitVec.ofNat 5 k.val,
    lsevl := BitVec.ofNat 2 sev, lblock := BitVec.ofNat 8 (blkPage (srcBlk k)), react := inc16 s.flt.react } }

/-- A rise of a source and its reaction (R393, R395, R398, R399). A fatal fault ends a round with FATAL in the lk in which it becomes
present, before the reaction fences the power controller (14 R368, R373). -/
def takeReaction (s : State) (k : Fin 21) (sev : Nat) : State :=
  let s1 := settleRound (latchSrc s k sev)
  let s2 := if s.flt.src.getLsbD k.val then s1 else evt s1 .flt 0
  let s3 := if !fatal s && fatal s1 then evt s2 .flt 2 else s2
  let s4 := evt (recordReact s3 k sev) .flt 1
  let s5 := (reactUnits (srcBlk k) sev).foldl boxFence s4
  if sev = 3 && (optByte s 6).getLsbD 0 then assertLkp s5 2 (BitVec.ofNat 8 (blkPage (srcBlk k))) else s5

/-- A source is seen by the Signal box: its line is asserted, or its bit is set (R389, R392). -/
def reaction (s : State) (k : Fin 21) : State :=
  let line := lineErr s (srcBlk k) ≠ 0
  let old := s.flt.src.getLsbD k.val
  let lsev := s.flt.lsev[k].toNat
  let sev := max (if old then lsev else 0) (effSev s k)
  if (line || old) && (!old || lsev < sev) then takeReaction s k sev else s

/-- REACTION: the lk of the latch and the lk of the reaction together (Table 15.4; log 27). -/
def execReaction (k : Fin 21) (s : State) : Out := groupCmd 1 (fun t => reaction t k) s

/-- A W1C write of FLT_STAT: it clears a bit only while the source's line, which is one lk late, is not asserted (R389, R392). -/
def fltClear (s : State) (mask : Word) : State :=
  let hit (k : Fin 21) : Bool := bitAt mask k.val && s.flt.src.getLsbD k.val && decide (lineErr s (srcBlk k) = 0)
  let gone : BitVec 21 := (List.finRange 21).foldl (fun (a : BitVec 21) k => if hit k then a ||| BitVec.ofNat 21 (1 <<< k.val) else a) 0
  let src := s.flt.src &&& ~~~gone
  let s1 := { s with flt := { s.flt with
    src := src, lsev := s.flt.lsev.mapFinIdx (fun i v h => if hit ⟨i, h⟩ then 0 else v),
    fvalid := s.flt.fvalid && decide (src ≠ 0) } }
  if s.flt.src ≠ 0 && src = 0 then evt s1 .flt 3 else s1

/-- FLT_STAT_CLEAR. -/
def execFltStatClear (mask : Word) (s : State) : Out := pageCmd .flt (fun t => fltClear t mask) s

/-- A write of 1 to FLT_CMD.PWRUNF (R396). During a Block reset of PWR it ends Siding, and the restart follows at lk 255, as for an
UNFENCE (02 R37; log 28). -/
def pwrUnf (s : State) : State :=
  if (s.hdr .pwr).siding && !srcSet s .clk && !srcSet s .pwr && !fatal s then
    let s1 := s.modHdr .pwr fun h => { h with siding := false, fenceAfter := false }
    if (s.hdr .pwr).inrst then s1 else pwrRestart s1
  else s

/-- PWRUNF. -/
def execPwrunf (s : State) : Out := pageCmd .flt pwrUnf s

end Sys2Proof.Machine
end

