-- ==== Sys2Proof/Machine/Clock.lean ====
section
/-! DEFINITION. The one clock: cell time and its boundary, FRAME_START, performance levels and PGOOD, dividers and trims,
the Timetable's reservations, and what an idle lk does (04, 07 R188–R192, 14 R379). -/

namespace Sys2Proof.Machine

/-! ### Packets from the host and the entry handshake (14 R371–R374) -/

/-- A probe of the upstream port ends (06 R150). -/
def probeEnd (s : State) : State :=
  if s.upl.probing then { s with upl := { s.upl with probing := false, connect := false } } else s

/-- A packet that is neither an FSTART nor an EP1 poll ends a round with HOSTPKT, and the idle count starts again (R371,
R379). -/
def hostAbort (s : State) : State :=
  let s1 := match s.pwr.round with
    | .none => s
    | .voting | .agreed | .preadySent => endRound s 7 0x08
  probeEnd { s1 with pwr := { s1.pwr with idleCnt := 0 } }

/-- An entry to Retain or Heron is between PREADY and the stop: the core is gated, or is in the next lk (R377). -/
def entering (s : State) : Bool := s.pwr.round == .preadySent && (s.pwr.gated || decide (s.pwr.entry ≠ 0))

/-- A packet reaches the upstream port. Out of service it meets no answer; one that arrives between PREADY and the stop of an entry
to Retain or Heron aborts the entry and is not answered (R373, R374). -/
def hostRow (f : State → State) (s : State) : Out :=
  if entering s then (if s.pwr.clockOn then done (silent (endRound s 7 0x08)) else .next s)
  else if inService s then done (f (hostAbort s))
  else .next s

/-! ### The Timetable's reservations (07 R191, R192) -/

/-- The page of a reservation target; port I has none. -/
def targetOut (s : State) (t : Fin 9) : Bool :=
  if h : t.val < 8 then (s.hdr (.prt ⟨t.val, h⟩)).siding || (s.hdr (.prt ⟨t.val, h⟩)).inrst else false

/-- The sum of the written values of the targets that count (R192). -/
def ttbSum (s : State) : Nat :=
  ((List.finRange 9).map fun t => if targetOut s t || s.ttb.out[t] then 0 else s.ttb.res[t]).sum

/-- TTB_FREE. -/
def ttbFree (s : State) : Nat := 24576 - ttbSum s

/-- A write of TTB_RESn (R192). -/
def resWrite (s : State) (t : Fin 9) (val : Word) : State :=
  let s1 := { s with ttb := { s.ttb with res := s.ttb.res.set t.val (fld val 0 15) t.isLt, out := s.ttb.out.set t.val false t.isLt } }
  if 24576 < ttbSum s1 then evt s .ttb 1 else s1

/-- TTB_RES_WRITE. -/
def execTtbResWrite (t : Fin 9) (val : Word) (s : State) : Out := pageCmd .ttb (fun x => resWrite x t val) s

/-- One target at local lk 0 (R192). Of several targets that leave Siding before the same local lk 0 and whose values do not all fit,
the one with the lowest number is refused first: the spec gives no order (DESIGN CHOICE, log 45). -/
def resApply (s : State) (t : Fin 9) : State :=
  if targetOut s t || s.ttb.out[t] then { s with ttb := { s.ttb with now := s.ttb.now.set t.val 0 t.isLt } }
  else if s.ttb.ret[t] && decide (24576 < ttbSum s) then
    evt { s with ttb := { s.ttb with
      now := s.ttb.now.set t.val 0 t.isLt, ret := s.ttb.ret.set t.val false t.isLt, out := s.ttb.out.set t.val true t.isLt } }
      .ttb 1
  else { s with ttb := { s.ttb with now := s.ttb.now.set t.val s.ttb.res[t] t.isLt, ret := s.ttb.ret.set t.val false t.isLt } }

/-! ### Cell time (04 R90–R94) -/

/-- What follows the frame boundary (05 R123, 07 R191, R192, 09 R232, R234, 13 R345). -/
def frameBoundary (s : State) : State :=
  let s1 := evt { s with
    clk := { s.clk with frame := s.clk.frame + 1, lk := 0, fsSeen := false, fsChecked := false }
    pwr := { s.pwr with noMiss := false }
    rst := { s.rst with wdgFrames := inc16 s.rst.wdgFrames }
    ttb := { s.ttb with
      lastSched := s.ttb.used.toList.sum, lastOther := s.ttb.other, used := Vector.replicate 9 0, other := 0 } } .ttb 0
  let s2 := (List.finRange 9).foldl resApply s1
  let s3 := allPorts.foldl (fun a n => (a.modPort n fun p =>
    { p with sinceFs := p.sinceFs.map (· + 1), noFs := false }).modXport n fun p => { p with fsWait := false }) s2
  allInsts.foldl (fun a i => a.modInst i rxGrow) s3

/-- VSEL reaches the last code of its steps. -/
def vselSettle (s : State) : State :=
  { s with clk := { s.clk with vcode := s.clk.vsteps.getLastD s.clk.vcode, vsteps := [] } }

/-- One sample of a probe: the first high one ends it, and while the host drives the lane low it goes on (06 R150). -/
def probePass (s : State) (k : Nat) : State :=
  if !s.upl.probing then s
  else if s.upl.probeLows < k then probeEnd s
  else { s with upl := { s.upl with probeLows := s.upl.probeLows - k } }

/-- `k` lk pass beside cell time: the probe and the hub's own remote wake on UD0 (06 R150, R162), the channels, and the order of
lk. -/
def passLk (s : State) (k : Nat) : State :=
  let s1 := probePass { s with upl := { s.upl with wakeLk := s.upl.wakeLk - k } } k
  let s2 := allChans.foldl (fun a c => chanPass a k c) s1
  { s2 with now := s2.now + k }

/-- Idle lk count toward a proposal (14 R379). -/
def idlePass (s : State) (k : Nat) : State :=
  if s.pwr.idleLimit ≠ 0 && s.pwr.round = .none && allIdle s then
    { s with pwr := { s.pwr with idleCnt := min 0xFFFFFF (s.pwr.idleCnt + k) } }
  else s

/-- The next VSEL code of a path is driven. -/
def vselStep (s : State) : State :=
  match s.clk.vsteps with
  | [] => s
  | v :: r => { s with clk := { s.clk with vcode := v, vsteps := r } }

/-- One lk of the clocked core: its rising edge samples the pads, and then cell time, the strobes and the counts move on. -/
def tickLk (s : State) : State :=
  let s1 := passLk (vselStep (newLk (samplePads s))) 1
  let s2 := if !s1.clk.ctRun then s1
    else if s1.clk.lk = 32767 then frameBoundary s1
    else { s1 with clk := { s1.clk with lk := s1.clk.lk + 1 } }
  idlePass (lateStart (allChans.foldl stampSof s2)) 1

/-- `n` lk, one by one. -/
def ticks : Nat → State → State
  | 0, s => s
  | n + 1, s => ticks n (tickLk s)

/-- `k` lk that stay within the frame pass together. -/
def skipLk (s : State) (k : Nat) : State :=
  if k = 0 then s
  else
    let s1 := passLk (vselSettle (newLk s)) k
    let s2 := { s1 with clk := { s1.clk with lk := s1.clk.lk + BitVec.ofNat 15 k } }
    idlePass (lateStart (allChans.foldl stampSof s2)) k

/-- LOCAL_LK_0: the lk up to the boundary pass, the last three one by one, so that the pad samples are those of R76 (log 1). -/
def execLocalLk0 (s : State) : Out :=
  if coreRuns s && s.clk.ctRun then
    let k := 32768 - lkNow s
    done (ticks (min 3 k) (skipLk s (k - 3)))
  else .next s

/-- One lk of a gated core with UCLK running. On the entry to Retain or Heron the core is gated in lk E + 1, where a Heron entry
clears MISS and BURSTS (14 R387), BORLOW is set in E + 2, and VSEL goes to 0b11 from E + 3 on (R377). On the way back VSEL returns
to CUR's code (Table 14.6). -/
def gatedLk (s : State) : State :=
  match s.pwr.entry with
  | 0 => vselStep s
  | 1 =>
    let s1 := { s with pwr := { s.pwr with gated := true, entry := 2 } }
    if s.pwr.rstate = .heron then { s1 with aon := { s1.aon with miss := 0, bursts := 0 } } else s1
  | 2 =>
    { s with pwr := { s.pwr with entry := 3 }, rst := { s.rst with borlow := true },
             clk := { s.clk with vsteps := vselPath s.clk.vcode 3 } }
  | _ => vselStep s

/-- What a step does on an empty queue: one lk passes if UCLK runs (log 2). -/
def tick (s : State) : Out :=
  if entering s || (s.pwr.gated && s.rst.phase == .run) then (if s.pwr.clockOn then done (gatedLk s) else .next s)
  else if coreRuns s then done (tickLk s)
  else .next s

/-- A captured FRAME_START sets or checks cell time (R91). A second one in a frame counts as seen as well. -/
def captureFrame (s : State) (f : BitVec 16) : State :=
  let s1 := { s with clk := { s.clk with tierNow := s.clk.tier, adjNow := s.clk.adj } }
  let e := captureOffset s1
  let load (x : State) : State :=
    { x with clk := { x.clk with frame := f, lk := BitVec.ofNat 15 e, ctValid := true, fsSeen := true } }
  if !s.clk.ctValid then load s1
  else if s.clk.frame = f && lkNow s = e then { s1 with clk := { s1.clk with fsSeen := true } }
  else
    let d : Int := (lkNow s : Int) - (e : Int)
    let d' : Int := if 32767 < d then 32767 else if d < -32767 then -32767 else d
    load (evt { s1 with clk := { s1.clk with slipDelta := d', slipCnt := inc16 s1.clk.slipCnt } } .clk 2)

/-- The FSTART as each port gets it: repeated on a Full port; on a translated port it waits for the translator's own
FSTART; none while SUSPREQ withholds it or until the next local lk 0 after a resume (07 R175, 09 R232, R234, 10 R261). -/
def portFstart (s : State) (n : Port) : State :=
  let p := s.port n
  if p.state = .ena && !p.suspReq && !p.noFs then
    if p.full then s.modPort n fun p => { p with sinceFs := some 0 }
    else if translated s n then
      (basicFstart s n).modXport n fun p => { p with fsWait := true }
    else s
  else s

/-- FRAME_START, which goes downstream (07 R175). An FSTART after PREADY ends the entry (14 R373). -/
def frameStart (s : State) (f : BitVec 16) : State :=
  let s1 := match s.pwr.round with
    | .preadySent => endRound s 7 0x08
    | .none | .voting | .agreed => s
  let s2 := fstartDown (probeEnd (captureFrame s1 f)) (fstartPkt f)
  allPorts.foldl portFstart { s2 with upl := { s2.upl with fsCounted := true } }

/-- FRAME_START. -/
def execFrameStart (f : BitVec 16) (s : State) : Out :=
  if entering s then (if s.pwr.clockOn then done (endRound s 7 0x08) else .next s)
  else if inService s then done (frameStart s f)
  else .next s

/-- FSMISS (R93, 14 R375). -/
def execFsmiss (s : State) : Out :=
  if s.clk.ctValid && !s.clk.fsSeen && !s.clk.fsChecked && !s.pwr.noMiss then
    coreCmd (fun t => evt { t with clk := { t.clk with fsMissCnt := inc16 t.clk.fsMissCnt, fsChecked := true } } .clk 3) s
  else .next s

/-- A write of 1 to CLK_CTCAP.CAP (R94). -/
def capTime (s : State) : State := { s with clk := { s.clk with snapFrame := s.clk.frame, snapLk := s.clk.lk } }

/-- CLK_CTCAP_CAP. -/
def execClkCtcapCap (s : State) : Out := coreCmd capTime s

/-! ### Performance levels (04 R98–R103) -/

/-- A level request (R99). While PWR is in Block reset the power controller takes no request (log 28). -/
def lvlRequest (s : State) (level : Fin 4) : State :=
  if s.clk.vbusy || siding s .pwr || (s.hdr .pwr).inrst then evt s .clk 1
  else if levelCode level = levelCode s.clk.cur then
    evt { s with clk := { s.clk with req := level, cur := level } } .clk 0
  else
    let p := vselPath s.clk.vcode (levelCode level)
    { s with clk := { s.clk with
      req := level, vbusy := true, vphase := .vmin level, vcode := p.headD s.clk.vcode, vsteps := p.drop 1 } }

/-- A write of CLK_LVL.REQ. It comes with a packet, which aborts a round that has not reached PREADY, and no level transition starts
between the agreement and the service that follows (14 R376). -/
def lvlWrite (s : State) (level : Fin 4) : State :=
  match s.pwr.round with
  | .preadySent => s
  | .voting | .agreed => lvlRequest (endRound s 7 0x08) level
  | .none => if s.pwr.low.isSome || s.pwr.exit ≠ .none then s else lvlRequest s level

/-- CLK_LVL_REQ. -/
def execClkLvlReq (level : Fin 4) (s : State) : Out := coreCmd (fun t => lvlWrite t level) s

/-- VMIN_WAIT_END. -/
def execVminWaitEnd (s : State) : Out :=
  match s.clk.vphase with
  | .vmin t => coreCmd (fun x => { vselSettle x with clk := { (vselSettle x).clk with vphase := .watch t } }) s
  | .idle | .watch _ | .start => .next s

/-- PGOOD has read high, so the next low read begins a new run (R102). -/
def pgoodHigh (s : State) : State := { s with clk := { s.clk with pgLow := false } }

/-- PGOOD qualifies outside an exit: the transition or the start-up wait ends (R99, R103). -/
def pgoodLevel (s0 : State) : State :=
  let s := pgoodHigh s0
  match s.clk.vphase with
  | .watch t => evt { s with clk := { s.clk with cur := t, vbusy := false, vphase := .idle } } .clk 0
  | .start => { s with clk := { s.clk with vbusy := false, vphase := .idle } }
  | .idle | .vmin _ => s

/-- PGTO (R99, R100, 05 R118); a round that waited for the transition is refused with LEVEL (14 R368). -/
def pgto (s : State) : State :=
  match s.clk.vphase with
  | .idle => s
  | .vmin _ | .watch _ | .start =>
    let s1 := vselSettle s
    let s2 := raise { s1 with clk := { s1.clk with vbusy := false, vphase := .idle } } .clk 0
    match s2.pwr.round with
    | .none => s2
    | .voting | .agreed | .preadySent => endRound s2 6 0x06

/-- PGTO. -/
def execPgto (s : State) : Out := groupCmd 1 pgto s

/-- PGOOD has read low for 64 lk, with a high read since the last run of lows or not: once per run, in Active with VBUSY 0, and not
while the power controller is fenced or in Block reset (R102, 15 R396). -/
def pgLost (s : State) (highSeen : Bool) : State :=
  let s1 := if highSeen then pgoodHigh s else s
  if s1.clk.vbusy || siding s1 .pwr || (s1.hdr .pwr).inrst || s1.pwr.low.isSome || s1.clk.pgLow then s1
  else raise { s1 with clk := { s1.clk with pgLow := true } } .clk 1

/-- PGLOST; `highSeen`: PGOOD has read high since it was last raised. -/
def execPglost (highSeen : Bool) (s : State) : Out := groupCmd 1 (fun t => pgLost t highSeen) s

/-! ### Dividers and trims (04 R85, R88) -/

/-- A write of CLK_DIVx (R88). -/
def divWrite (s : State) (c : Chan) (val : Word) : State :=
  let v := fld val 0 13
  if v % 2 = 1 || v < 10 || 4096 < v then evt s .clk 4
  else
    let s1 := { s with clk := { s.clk with div := s.clk.div.set c.val v c.isLt } }
    if (s.hdr (.jx c)).en then s1
    else strobeRest { s1 with clk := { s1.clk with divNow := s1.clk.divNow.set c.val v c.isLt } } c

/-- CLK_DIV_WRITE. -/
def execClkDivWrite (c : Chan) (val : Word) (s : State) : Out := coreCmd (fun t => divWrite t c val) s

/-- UD_TRIM_APPLY, when the upstream link is quiet (R85). -/
def execUdTrimApply (s : State) : Out :=
  if s.upl.txn.target == .none then
    groupCmd 2 (fun t => { t with clk := { t.clk with ud0Now := t.clk.ud0, ud1Now := t.clk.ud1 } }) s
  else .next s

end Sys2Proof.Machine
end

