-- ==== Sys2Proof/Machine/Mem.lean ====
section
/-! DEFINITION. Programming of the pin fuses and of the option bytes, the retained memory, and the low-water mark (03 §3.7,
05 §5.8, §5.9, 12 Table 12.9). -/

namespace Sys2Proof.Machine

/-! ### PIN_FPROG (03 R69, R70) -/

/-- A write of PIN_FPROG. -/
def fprogWrite (s : State) (val : Word) (vppOk : Bool) : State :=
  let cmd := fld val 14 2
  let bit := fld val 0 8
  let bad := fld val 16 16 ≠ 0x5046 || (cmd ≠ 1 && cmd ≠ 2) || 191 < bit || s.pins.fpCmd.isSome ||
    (cmd = 1 && (fuseLocked s || !vppOk || s.clk.cur = 3))
  if bad then { s with pins := { s.pins with fpRefused := true } }
  else { s with pins := { s.pins with
    fpCmd := some (if cmd = 1 then .program bit else .verify bit), fpRefused := false, fpLastBit := bit } }

/-- FPROG_PROGRAM. -/
def execFprogProgram (val : Word) (vppOk : Bool) (s : State) : Out := coreCmd (fun t => fprogWrite t val vppOk) s

/-- FPROG_VERIFY: VPP plays no part. -/
def execFprogVerify (val : Word) (s : State) : Out := coreCmd (fun t => fprogWrite t val true) s

/-- A fuse bit itself. -/
def fuseBit (s : State) (bit : Nat) : Bool := bitAt s.pins.otp[(Fin.ofNat 6 (bit / 32))] (bit % 32)

/-- A fuse changes only from 0 to 1. -/
def setFuse (s : State) (bit : Nat) : State :=
  let w : Fin 6 := Fin.ofNat 6 (bit / 32)
  { s with pins := { s.pins with otp := s.pins.otp.set w.val (s.pins.otp[w] ||| oneBit (bit % 32)) w.isLt } }

/-- FPROG_PROGRAM_DONE: `took` tells whether the pulse programmed the fuse. -/
def execFprogProgramDone (took : Bool) (s : State) : Out :=
  match s.pins.fpCmd with
  | some (.program bit) =>
    coreCmd (fun t =>
      let t1 := if took then setFuse t bit else t
      let v := fuseBit t1 bit
      { t1 with pins := { t1.pins with fpCmd := none, fpValue := v, lockProg := t1.pins.lockProg || (v && bit = 190) } }) s
  | some (.verify _) => .next s
  | none => .next s

/-- FPROG_VERIFY_DONE. -/
def execFprogVerifyDone (s : State) : Out :=
  match s.pins.fpCmd with
  | some (.verify bit) => coreCmd (fun t => { t with pins := { t.pins with fpCmd := none, fpValue := fuseBit t bit } }) s
  | some (.program _) => .next s
  | none => .next s

/-! ### OPT_PROG (05 R135, R136) -/

/-- The new data with its check bits would need a programmed bit to return to 0 (R135): a data bit, or a check bit, which
the spec does not give (log 9). A blank codeword has no programmed bit; a repeat of the data of a cut-short command only
adds bits (R137). -/
def optConflict (c : Codeword) (data : BitVec 64) : Bool :=
  match c.partialOf with
  | some d => if d = data then false else Config.checkConflict c.data data
  | none =>
    if c.data = data then false
    else if c.data &&& ~~~data ≠ 0 then true
    else if c.data = 0 && c.cond = .clean then false
    else Config.checkConflict c.data data

/-- A write of OPT_PROG. -/
def optWrite (s : State) (val : Word) (vppOk : Bool) : State :=
  let cmd := fld val 14 2
  let cw : Fin 16 := Fin.ofNat 16 (fld val 0 4)
  let data : BitVec 64 := s.opt.pdata1 ++ s.opt.pdata0
  let bad := fld val 16 16 ≠ 0x4F50 || (cmd ≠ 1 && cmd ≠ 2) || cw = 1 || s.opt.cmd.isSome || s.opt.olocked || !vppOk ||
    (cmd = 1 && (s.clk.cur = 3 || optConflict s.opt.otp[cw] data))
  if bad then { s with opt := { s.opt with refused := true } }
  else { s with opt := { s.opt with
    cmd := some (if cmd = 1 then .program cw data else .verify cw), refused := false, lastCw := cw } }

/-- OPT_PROG_PROGRAM. -/
def execOptProgProgram (val : Word) (vppOk : Bool) (s : State) : Out := coreCmd (fun t => optWrite t val vppOk) s

/-- OPT_PROG_VERIFY. -/
def execOptProgVerify (val : Word) (vppOk : Bool) (s : State) : Out := coreCmd (fun t => optWrite t val vppOk) s

/-- The end of an OPT_PROG command: RESULT, VDATA, PDONE. -/
def optDone (s : State) (c : Codeword) : State :=
  evt { s with opt := { s.opt with
    cmd := none, result := c.cond, vdata0 := c.data.setWidth 32, vdata1 := (c.data >>> 32).setWidth 32 } } .opt 0

/-- OPT_PROG_PROGRAM_DONE: `cond` is how the codeword decodes; an uncorrectable one decodes to a free value. -/
def execOptProgProgramDone (cond : CwCond) (s : State) : Out :=
  match s.opt.cmd with
  | some (.program cw data) =>
    coreCmd (fun t =>
      let c : Codeword := ⟨if cond = .uncorrectable then Config.freeCodeword t.free else data, cond, none⟩
      optDone (nextFree { t with opt := { t.opt with otp := t.opt.otp.set cw.val c cw.isLt } }) c) s
  | some (.verify _) => .next s
  | none => .next s

/-- OPT_PROG_VERIFY_DONE. -/
def execOptProgVerifyDone (s : State) : Out :=
  match s.opt.cmd with
  | some (.verify cw) => coreCmd (fun t => optDone t t.opt.otp[cw]) s
  | some (.program _ _) => .next s
  | none => .next s

/-! ### Retained memory (05 R132, R133) -/

/-- Address of a retained-memory word. -/
def rtmAddr (w : Fin 256) : Nat := 0x4000 + 4 * w.val

/-- A read of a retained-memory word: a failing parity is recorded. -/
def rtmCheck (s : State) (w : Fin 256) (parityOk : Bool) : State :=
  let a := rtmAddr w
  if parityOk && !s.parBad.contains a then s
  else
    raise { s with
      parBad := if s.parBad.contains a then s.parBad else s.parBad ++ [a]
      bkp := { s.bkp with errCount := satInc 0xFF s.bkp.errCount, errWord := BitVec.ofNat 8 w.val } } .bkp 0

/-- RTM_READ. -/
def execRtmRead (w : Fin 256) (parityOk : Bool) (s : State) : Out := coreCmd (fun t => rtmCheck t w parityOk) s

/-- A write of a retained-memory word. -/
def rtmStore (s : State) (w : Fin 256) (val : Word) : State :=
  if s.bkp.wp.getLsbD (w.val / 64) then evt s .bkp 0 else memStore s (rtmAddr w) val

/-- RTM_WRITE. -/
def execRtmWrite (w : Fin 256) (val : Word) (s : State) : Out := coreCmd (fun t => rtmStore t w val) s

/-! ### The low-water mark (12 Table 12.9) -/

/-- A write of 1 to MBR_CFG.LOWCLR. -/
def lowClear (s : State) : State := { s with dbg := { s.dbg with lowest := poolFree s } }

/-- MBR_CFG_LOWCLR. -/
def execMbrCfgLowclr (s : State) : Out := pageCmd .mbr lowClear s

end Sys2Proof.Machine
end

