-- ==== Sys2Proof/Machine/Power.lean ====
section
/-! DEFINITION. Low power: rounds, the stop, the return of the clock, the wake latch, the Heron sampler and service (14). -/

namespace Sys2Proof.Machine

/-! ### Rounds (14 R367–R373, R379) -/

/-- A write of PWR_REQ with a state starts a round (R370). -/
def execPwrReqPark (s : State) : Out := pageCmd .pwr (fun t => startRound t .park) s

def execPwrReqRetain (s : State) : Out := pageCmd .pwr (fun t => startRound t .retain) s

def execPwrReqHeron (s : State) : Out := pageCmd .pwr (fun t => startRound t .heron) s

/-- PROPOSE: the idle count reaches LIMIT × 256 (R379). -/
def execPropose (s : State) : Out :=
  if s.pwr.idleLimit ≠ 0 && s.pwr.round = .none && s.pwr.low.isNone && s.pwr.exit = .none && allIdle s then
    pageCmd .pwr (fun t =>
      startRound (evt { t with pwr := { t.pwr with idleCnt := min 0xFFFFFF (256 * t.pwr.idleLimit) } } .pwr 0) .park) s
  else .next s

/-- DELAY_MAX: a busy AUTO participant that has not consented refuses (R367). -/
def execDelayMax (bit : Fin 21) (s : State) : Out :=
  let b := partBlk bit
  if s.pwr.round = .voting && decide (bit.val < 19) && !held s bit.val && policy s b = 0 && busy s bit then
    coreCmd (fun t => endRound t 2 (BitVec.ofNat 8 (blkPage b))) s
  else .next s

/-- AGREED: every participant has consented (R372). -/
def execAgreed (s : State) : Out :=
  if s.pwr.round = .voting && allConsented s then
    coreCmd (fun t => evt { t with pwr := { t.pwr with round := .agreed } } .pwr 1) s
  else .next s

/-- NOPOLL (R371). -/
def execNopoll (s : State) : Out :=
  if s.pwr.round = .agreed then coreCmd (fun t => endRound t 8 0x09) s else .next s

/-- HOSTLATE (R373). -/
def execHostlate (s : State) : Out :=
  if s.pwr.round = .preadySent && s.pwr.clockOn then done (endRound s 9 0x08) else .next s

/-- The agreement: PREADY is sent (R372). In Retain and Heron the steps of R377 follow in the next lk. -/
def sendPready (s : State) : State :=
  let next := match s.pwr.rstate with
    | .park => 0
    | .retain | .heron => 1
  evt { s with
    pwr := { s.pwr with round := .preadySent, noMiss := true, entry := next }, clk := { s.clk with armed := false } } .pwr 2

/-! ### The wake latch (14 R380, R381) -/

/-- Latch a source that is armed and enabled. -/
def latchWake (s : State) (code : Fin 22) : State :=
  { s with aon := { s.aon with
    latched := s.aon.latched ||| BitVec.ofNat 22 (1 <<< code.val),
    first := if s.aon.latched = 0 then BitVec.ofNat 5 code.val else s.aon.first,
    early := if s.aon.latched = 0 then s.pwr.low.isNone else s.aon.early } }

/-- The sampler's input of a PORT, PFLT, JXA or JXB source (Table 14.7). -/
def heronInput (code : Fin 22) : Nat := code.val - 2

/-- The source is one of a pin and is enabled in the present state (Table 14.5, R381). HOST, HERON and CLKRET are latched by what
makes them: the return of the clock, the wake pattern, the sampler (R383, R387). -/
def wakeEnabled (s : State) (code : Fin 22) : Bool :=
  if code.val < 2 || 20 ≤ code.val then false
  else s.aon.wakeEn.getLsbD code.val && !(s.pwr.low = some .heron && s.aon.hrnMask.getLsbD (heronInput code))

/-- WAKE_SOURCE. -/
def execWakeSource (code : Fin 22) (s : State) : Out :=
  if s.aon.armed && wakeEnabled s code then done (latchWake s code) else .next s

/-! ### The stop and the return (14 R372, R383) -/

/-- What is left of the steps of R377 at the stop. The host stops the clock no earlier than E + 8, so all of them are done (R372). -/
def finishEntry (s : State) : State :=
  if s.pwr.rstate = .park then s
  else
    let s1 := { s with
      pwr := { s.pwr with gated := true, entry := 0 }, rst := { s.rst with borlow := true },
      clk := { s.clk with vcode := 3, vsteps := [] } }
    if s.pwr.rstate = .heron then { s1 with aon := { s1.aon with miss := 0, bursts := 0 } } else s1

/-- CLOCK_STOP: the entry completes; consents hold until service. -/
def execClockStop (s : State) : Out :=
  if s.pwr.round = .preadySent && s.pwr.clockOn then
    let s1 := finishEntry s
    done { s1 with pwr := { s1.pwr with clockOn := false, low := some s.pwr.rstate, round := .none } }
  else .next s

/-- The exit of Retain and Heron starts: VSEL returns to CUR's code and PGOOD is awaited (Table 14.6, X1 to X3). -/
def startExit (s : State) : State := vselBack { s with pwr := { s.pwr with exit := .pgood } }

/-- CLOCK_RETURN (R383): in Park any return is source HOST; in Retain one without the pattern is source CLKRET. -/
def clockReturn (s : State) (pattern : Bool) : State :=
  let s1 := { s with pwr := { s.pwr with clockOn := true } }
  match s.pwr.low with
  | none => s1
  | some .park => latchWake { s1 with pwr := { s1.pwr with exit := .parkReturn }, clk := { s1.clk with armed := true } } 1
  | some .retain =>
    let s2 := { s1 with pwr := { s1.pwr with exit := .returned }, clk := { s1.clk with armed := true } }
    if pattern then s2 else startExit (latchWake s2 21)
  | some .heron => { s1 with pwr := { s1.pwr with exit := .returned }, aon := { s1.aon with committed := false } }

/-- CLOCK_RETURN. -/
def execClockReturn (pattern : Bool) (s : State) : Out :=
  if s.pwr.clockOn then .next s else done (clockReturn s pattern)

/-- The hub repeats the wake pattern on DDn of every ENABLED port (06 R165). -/
def repeatPattern (s : State) : State :=
  { s with sent := Vector.ofFn fun n => if (s.port n).state = .ena then some .wake else none }

/-- WAKE_PATTERN: source HOST, and in Retain and Heron the exit (R383). In Park the core runs and repeats the pattern 8 lk later. -/
def execWakePattern (s : State) : Out :=
  if s.pwr.clockOn && s.pwr.exit = .returned then done (startExit (latchWake s 1))
  else if s.pwr.clockOn && s.pwr.exit = .parkReturn then done (repeatPattern (latchWake s 1))
  else .next s

/-! ### The sampler (14 R386, R387) -/

/-- CONFIRM in force: 0 acts as 1. -/
def confirmLim (s : State) : Nat := if s.aon.confirm = 0 then 1 else s.aon.confirm

/-- The commit at the eighth rising edge. -/
def sampleCommit (s : State) (x : BitVec 18) : State :=
  let d := (x ^^^ s.aon.hrnExp) &&& s.aon.hrnMask
  let miss := if d = 0 then 0 else satInc 15 s.aon.miss
  let s1 := { s with aon := { s.aon with
    sample := x, bursts := satInc 0xFFFFFF s.aon.bursts, miss := miss, committed := true } }
  if confirmLim s ≤ miss then latchWake { s1 with aon := { s1.aon with diff := d } } 20 else s1

/-- SAMPLING_BURST: every return in Heron is sampled once. -/
def execSamplingBurst (sample : BitVec 18) (s : State) : Out :=
  if s.pwr.low = some .heron && s.pwr.clockOn && (s.pwr.exit = .returned || s.pwr.exit = .pgood) && !s.aon.committed then
    done (sampleCommit s sample)
  else .next s

/-- SAMPLING_BURST_END. -/
def execSamplingBurstEnd (edges : Nat) (s : State) : Out :=
  if s.pwr.low = some .heron && s.pwr.clockOn && s.pwr.exit = .returned then
    done { s with
      pwr := { s.pwr with clockOn := false, exit := .none }
      aon := { s.aon with committed := false, short := if edges < 8 then satInc 0xFF s.aon.short else s.aon.short } }
  else .next s

/-! ### Service (14 R382, R383, R384, R388) -/

/-- The ports whose wake was latched (R382). -/
def replayPorts (s : State) (latched : BitVec 22) : State :=
  allPorts.foldl (fun a n =>
    if latched.getLsbD (2 + n.val) && (a.port n).state = .sus && (a.port n).wakeen then remoteWake a n else a) s

/-- The first lk of service after a stop. From Retain and Heron, whatever started the exit, the wake pattern on the ENABLED ports is
counted from it (Table 14.6). -/
def resume (s : State) (late : Bool) : State :=
  let l := s.pwr.low.getD .park
  let s1 := { s with
    pwr := { s.pwr with low := none, exit := .none, gated := false, consented := 0, idleCnt := 0, noMiss := true,
                        entries := inc16 s.pwr.entries }
    clk := { s.clk with armed := true }
    rst := { s.rst with borlow := false }
    aon := { s.aon with wkFrom := lowCode l, wkLatepg := late, wkReplay := s.aon.early, wkSrc := s.aon.first,
                        wkSet := s.aon.latched, wkFrame := s.clk.frame, wkLk := s.clk.lk } }
  let s2 := if late then raise s1 .pwr 0 else s1
  let s3 := if l = .park then s2 else repeatPattern s2
  fillPads (evt (disarmLatch (replayPorts s3 s.aon.latched)) .pwr 4)

/-- PARK_SERVICE. -/
def execParkService (s : State) : Out :=
  if s.pwr.low = some .park && s.pwr.exit = .parkReturn then done (resume s false) else .next s

/-- The core restored after an abort (R373): no stop, so no wake record. -/
def restoreDone (s : State) (late : Bool) : State :=
  let s1 := { s with
    pwr := { s.pwr with exit := .none, gated := false, noMiss := true, idleCnt := 0 }, rst := { s.rst with borlow := false } }
  if late then raise s1 .pwr 0 else s1

/-- PGOOD_QUALIFICATION: a level transition, a start-up wait, an exit or an abort (04 R99, R103, 14 Table 14.6). `late`: an
exit waited longer than VTO × 1,024 lk (R384). -/
def execPgoodQualification (late : Bool) (s : State) : Out :=
  match s.pwr.exit with
  | .pgood => done (resume (vselSettle (pgoodHigh s)) late)
  | .abort => done (restoreDone (vselSettle (pgoodHigh s)) late)
  | .none | .parkReturn | .returned => groupCmd 1 pgoodLevel s

end Sys2Proof.Machine
end

