-- ==== Sys2Proof/Machine/Link.lean ====
section
/-! DEFINITION. The upstream port and the Junction: resets and training of the link, suspend and resume, and the transactions
that the host starts (06, 07, 08 R215). -/

namespace Sys2Proof.Machine

/-! ### Port resets of the upstream link (06 R148–R160) -/

/-- What both kinds of reset do to the port. An upstream port reset applies X1ONLY; a link reset keeps X1NOW (R158, 07
Table 7.11). R158 also names a loss of connection as an end of LINKUP and gives no condition by which the hub senses one on
UD0: nothing but a reset of the hub or a link reset ends LINKUP here (DESIGN CHOICE, log 46). -/
def uplReset (x1 : Bool) (s : State) : State :=
  { s with upl := { s.upl with
    phase := .resetting, connect := true, linkup := false, x2 := false, x1Now := x1, suspended := false,
    probing := false, probeLows := 0, fsCounted := false, wakeWanted := false, wakeLk := 0, txn := {} } }

/-- UPSTREAM_PORT_RESET: sensed while the connect drive is on (R149). -/
def execUpstreamPortReset (s : State) : Out :=
  if s.upl.linkup || !s.upl.connect then .next s else groupCmd 2 (uplReset s.upl.x1Only) s

/-- What a link reset forgets (08 R215, R195; 07 §7.10). Halted endpoints, the remote-wake enable and pending data stay
(log 29). -/
def linkForget (s : State) : State :=
  { s with
    upl := { s.upl with hcrcCnt := 0, dcrcCnt := 0, maskCnt := 0, dupCnt := 0, nrtCnt := 0, x2Cnt := 0, toCnt := 0, protoCnt := 0 }
    hub := { s.hub with
      addr := 0, addrOld := [], conf := false, brPres := false, brConf := false, brAddr := 0, brAddrOld := [],
      brResetWait := false, ep1Seq := false, ep1Fresh := false, tags := Vector.replicate 8 {},
      routes := (Vector.replicate 128 0xF#4).set 0 8#4 }
    ep0 := Vector.replicate 2 {}
    beps := s.beps.mapIdx fun _ e => { e with seq := false, ackable := false, fresh := false }
    rst := { s.rst with swrKey := false, dbgHeld := false }
    pwr := { s.pwr with reqHeld := none } }

/-- LINK_RESET: sensed in a probe, the only time at which the connect drive of a link that is up is on (R149, R150). -/
def execLinkReset (s : State) : Out :=
  if s.upl.linkup && s.upl.connect then groupCmd 2 (fun t => evt (uplReset s.upl.x1Now (linkForget t)) .upl 1) s else .next s

/-- A step of the training. -/
def linkStep (want : LinkPhase) (f : Upl → Upl) (s : State) : Out :=
  if s.upl.phase = want then groupCmd 2 (fun t => { t with upl := f t.upl }) s else .next s

/-- CHIRP: after its 576 lk and the tail the connect drive is off (Table 6.5). -/
def execChirp (s : State) : Out := linkStep .resetting (fun u => { u with phase := .chirped, connect := false }) s

/-- CHIRP_ANSWER_ACCEPTED. -/
def execChirpAnswerAccepted (s : State) : Out := linkStep .chirped (fun u => { u with phase := .training }) s

/-- CHIRP_ANSWER_TIMEOUT: the link is left unconnected (R157). -/
def execChirpAnswerTimeout (s : State) : Out :=
  linkStep .chirped (fun u => { u with phase := .unconnected, connect := false }) s

/-- CONNECT_RETRY. -/
def execConnectRetry (s : State) : Out := linkStep .unconnected (fun u => { u with connect := true }) s

/-- WIDTH_FIXED: x2 where the confirmation was sampled and the hub had offered it (R159). -/
def execWidthFixed (confirmed : Bool) (s : State) : Out :=
  linkStep .training (fun u => { u with phase := .trained, x2 := confirmed && !u.x1Now }) s

/-- LINKUP: the first start delimiter after the upstream port reset (R427). -/
def execLinkup (s : State) : Out :=
  if s.upl.phase = .trained then
    groupCmd 2 (fun t => evt { t with upl := { t.upl with phase := .up, linkup := true } } .upl 0) s
  else .next s

/-- PROBE: it ends at its first high sample, after `lows` low ones, or at a packet; while the host drives the lane low the connect
drive stays on, and after 64 lows a reset is sensed (R149, R150). -/
def execProbe (lows : Nat) (s : State) : Out :=
  if s.upl.linkup then
    groupCmd 2 (fun t => { t with upl := { t.upl with probing := true, probeLows := lows, connect := true } }) s
  else .next s

/-- UPSTREAM_SUSPEND (R160). -/
def execUpstreamSuspend (s : State) : Out :=
  if s.upl.linkup && s.upl.fsCounted && !s.upl.suspended then
    groupCmd 2 (fun t => { t with upl := { t.upl with suspended := true } }) s
  else .next s

/-- UPSTREAM_RESUME (09 R236). -/
def execUpstreamResume (quiet : Byte) (s : State) : Out :=
  if s.upl.suspended then
    coreCmd (fun t => upstreamWakes { t with upl := { t.upl with suspended := false, wakeWanted := false, wakeLk := 0 } } quiet) s
  else .next s

/-- HUB_REMOTE_WAKE: UD0 is driven for 512 lk (R162, 09 R237). -/
def execHubRemoteWake (s : State) : Out :=
  if s.upl.suspended && s.upl.wakeWanted then
    coreCmd (fun t => { t with upl := { t.upl with wakeWanted := false, wakeLk := 512 } }) s
  else .next s

/-! ### Transactions (07 R174–R177, R189, R191) -/

/-- The reservation target of a transaction. -/
def txnTarget (t : Txn) : Option (Fin 9) :=
  match t.target with
  | .port n => some ⟨n.val, by omega⟩
  | .xlt n => some ⟨n.val, by omega⟩
  | .portI => some 8
  | .none => none

/-- A transaction ends: its lk are counted (R191), saturating as the fields of TTB_USED. -/
def txnEnd (s : State) : State :=
  let lk := s.now - s.upl.txn.start
  let s1 := { s with upl := { s.upl with txn := {} } }
  match txnTarget s.upl.txn with
  | none => s1
  | some t =>
    if s.upl.txn.sched then { s1 with ttb := { s1.ttb with used := s1.ttb.used.set t.val (s1.ttb.used[t] + lk) t.isLt } }
    else { s1 with ttb := { s1.ttb with other := s1.ttb.other + lk } }

/-- NOROUTE (Table 7.4). -/
def noRoute (s : State) : State := evt { s with upl := { s.upl with nrtCnt := inc16 s.upl.nrtCnt } } .upl 3

/-- Routes as the Junction reads them: 0x9 to 0xE act as 0xF (08 R194). -/
def routeOf (s : State) (a : BitVec 7) : Target :=
  let r := s.hub.routes[a.toNat]'a.isLt
  if r.toNat < 8 then .port (Fin.ofNat 8 r.toNat) else if r = 8 then .portI else .none

/-- The function behind port I that an address reaches (08 R196, R197). -/
def funcAt (s : State) (a : BitVec 7) : Option Func :=
  if s.hub.addr = a || s.hub.addrOld.contains a then some .hub
  else if s.hub.brPres && (s.hub.brAddr = a || s.hub.brAddrOld.contains a) then some .bridge
  else none

/-- A packet has been addressed to a function: no DATA of it can be ACKed any more (07 R182). -/
def unAck (s : State) (f : Func) : State :=
  let s1 := s.modEp f fun e => { e with ackable := false }
  match f with
  | .hub => s1
  | .bridge => { s1 with beps := s1.beps.mapIdx fun _ e => { e with ackable := false } }

/-- A valid packet addressed to a function: once its new address has been heard, the old ones end (R197). -/
def funcHeard (s : State) (f : Func) (a : BitVec 7) : State :=
  let s1 := unAck s f
  match f with
  | .hub => { s1 with hub := { s1.hub with addrOld := if s1.hub.addr = a then [] else s1.hub.addrOld } }
  | .bridge => { s1 with hub := { s1.hub with brAddrOld := if s1.hub.brAddr = a then [] else s1.hub.brAddrOld } }

/-- The device that a header's ADDR names has been addressed (07 R182). -/
def addressedTo (s : State) (a : BitVec 7) : State :=
  match routeOf s a with
  | .portI => (match funcAt s a with
    | some f => unAck s f
    | none => s)
  | .port n => s.modXport n fun x => { x with ackable := none }
  | .xlt _ => s
  | .none => s

/-- The packet types that start a transaction (Table 7.2). -/
def startsTxn (typ : BitVec 4) : Bool := decide (1 ≤ typ.toNat) && decide (typ.toNat ≤ 6)

/-- A type with a payload that the host sends. -/
def hasPayload (typ : BitVec 4) : Bool := typ = 1 || typ = 3 || typ = 5 || typ = 12

/-- Reserved TYPE, an ADDR that breaks R167, or an LEN that Table 7.2 or R168 excludes (R172, R173). -/
def protoBad (h : BitVec 32) : Bool :=
  let t := hType h
  t = 0 || t = 14 || t = 15 || (hAddr h = 127 && t ≠ 12) || (t = 12 && hAddr h ≠ 127) || (t = 2 && hLen h ≠ 0) ||
    (t = 3 && hLen h ≠ 7) || (t = 1 && decide ((if hEp h = 0 then 63 else 511) < (hLen h).toNat)) || (t = 12 && hLen h ≠ 1) ||
    ((t = 8 || t = 10 || t = 11 || t = 13) && hLen h ≠ 0)

/-- The data part is good: LEN + 1 bytes with their CRC-32 (R171). -/
def dataOk (p : RawPkt) : Bool :=
  !hasPayload (hType p.header) || (p.payload.length = (hLen p.header).toNat + 1 && crc32 p.payload = p.crc)

/-- DCRC (R173). -/
def dcrcErr (s : State) : State := raise { s with upl := { s.upl with dcrcCnt := inc16 s.upl.dcrcCnt } } .upl 1

/-! ### What the Junction sends downstream (07 R174, R175) -/

/-- A packet at x1: repeated whole on the port `dst`, as a masked header on every other (R174); at x2 on none (R145). -/
def repeatDown (s : State) (p : RawPkt) (dst : Option Port) : State :=
  if p.x2 then { s with sent := Vector.replicate 8 none }
  else sendDown s fun n => if dst = some n then .repeated p else .masked p.header

/-- The port that the route of a packet's ADDR names. -/
def routedPort (s : State) (p : RawPkt) : Option Port :=
  match routeOf s (hAddr p.header) with
  | .port n => some n
  | .xlt _ => none
  | .portI => none
  | .none => none

/-- The packet at x2 routes to a Full port, which cannot carry it (06 R145). A port that is not ENABLED has no usable route
(Table 7.4; DESIGN CHOICE, log 43). -/
def x2ToFull (s : State) (p : RawPkt) : Bool :=
  p.x2 && (routedPort s p).any fun n => fullEnabled s n && !(s.port n).suspReq

/-- X2DISC. -/
def x2Disc (s : State) : State := evt { s with upl := { s.upl with x2Cnt := inc16 s.upl.x2Cnt } } .upl 4

/-! ### A request and its target (Table 7.4) -/

/-- The Junction takes the transaction. -/
def beginTxn (s : State) (t : Target) (p : RawPkt) (mute : Bool) : State :=
  let typ := hType p.header
  { s with upl := { s.upl with txn :=
    { target := t, phase := .turnaround, sched := typ = 5 || typ = 6, wantsAck := typ = 4,
      poll := t == .portI && (typ = 4 || typ = 6) && hEp p.header = 1 && hAddr p.header = s.hub.addr, start := s.now,
      addr := hAddr p.header, seq := hSeq p.header, mute := mute } } }

/-- The reservation of a scheduled request is used up (R191). -/
def overrun (s : State) (t : Target) (typ : BitVec 4) : Bool :=
  match txnTarget { target := t } with
  | none => false
  | some k => (typ = 5 || typ = 6) && s.ttb.enf && decide (s.ttb.now[k] ≤ s.ttb.used[k])

/-- A request whose header passed its checks, in time, to its target (Table 7.4). A target that did not get a good packet
gives no response, and the transaction lasts to the close of the response window (R191). The order of the grounds, OVERRUN
before NOROUTE before X2DISC, is the model's (DESIGN CHOICE, log 43). -/
def routeTxn (s : State) (p : RawPkt) : State :=
  let t := routeOf s (hAddr p.header)
  if overrun s t (hType p.header) then
    repeatDown (evt { s with ttb := { s.ttb with ovrCnt := inc16 s.ttb.ovrCnt } } .ttb 2) p none
  else match t with
  | .port n =>
    if (s.port n).state = .ena && !(s.port n).suspReq then
      if (s.port n).full then
        if p.x2 then repeatDown (beginTxn (x2Disc s) (.port n) p true) p none
        else
          let s1 := repeatDown (beginTxn s (.port n) p false) p (some n)
          if dataOk p then s1 else dcrcErr s1
      else
        let s1 := repeatDown (beginTxn s (.xlt n) p (!dataOk p)) p none
        s1.modXport n fun x => { x with ackable := none }
    else repeatDown (noRoute s) p none
  | .portI =>
    match funcAt s (hAddr p.header) with
    | none => repeatDown (noRoute s) p none
    | some f =>
      if dataOk p then repeatDown (beginTxn (funcHeard s f (hAddr p.header)) .portI p false) p none
      else repeatDown (dcrcErr (beginTxn s .portI p true)) p none
  | .xlt _ => s
  | .none => repeatDown (noRoute s) p none

/-- A late request (R189). -/
def cutOff (s : State) : State := evt { s with ttb := { s.ttb with cutCnt := inc16 s.ttb.cutCnt } } .ttb 3

/-- A packet that starts no transaction: it goes to the port its ADDR routes to; at x2 to a Full port it is discarded
(R145). An FSTART that comes here failed its data CRC: the hub repeats it whole all the same (R173, R175). -/
def otherPkt (s : State) (p : RawPkt) : State :=
  if hType p.header = 12 then (if dataOk p then s else fstartDown (dcrcErr s) p)
  else if x2ToFull s p then repeatDown (x2Disc s) p none
  else repeatDown s p (routedPort s p)

/-- A packet whose 16 delimiter bits match, checked in the order of R172: masked or failing header, TYPE with ADDR and LEN,
then the Timetable's limits (R189, 05 Table 5.7), then its route. The Junction has repeated the header by then, and a packet
that fails a check goes on to its port unchanged (R174). -/
def txnStart (s0 : State) (p : RawPkt) : State :=
  let s := { silent (txnEnd s0) with repUp := none }
  let h := p.header
  if hCrc h = ~~~(crc6 h) then
    repeatDown { s with upl := { s.upl with maskCnt := inc16 s.upl.maskCnt } } p (routedPort s p)
  else if hCrc h ≠ crc6 h then
    repeatDown (raise { s with upl := { s.upl with hcrcCnt := inc16 s.upl.hcrcCnt } } .upl 0) p (routedPort s p)
  else if protoBad h then
    repeatDown (raise { s with upl := { s.upl with protoCnt := inc16 s.upl.protoCnt } } .upl 2) p (routedPort s p)
  else if !startsTxn (hType h) then otherPkt (addressedTo s (hAddr h)) p
  else if (s.hdr .ttb).inrst then repeatDown (addressedTo s (hAddr h)) p none
  else if pastCutoff s then repeatDown (cutOff (addressedTo s (hAddr h))) p none
  else routeTxn (addressedTo s (hAddr h)) p

/-- An EP1 poll of the hub function does not end a round (14 R371, R374). -/
def isPoll (s : State) (p : RawPkt) : Bool :=
  (hType p.header = 4 || hType p.header = 6) && hEp p.header = 1 && hCrc p.header = crc6 p.header &&
    routeOf s (hAddr p.header) == .portI && funcAt s (hAddr p.header) == some .hub

/-- TRANSACTION_START. A packet without the delimiter 0x7E81 is no packet to the receiver (R166, R172). -/
def execTransactionStart (p : RawPkt) (s : State) : Out :=
  if p.delim ≠ delimiter then .next s
  else if isPoll s p && inService s && !entering s then done (txnStart (probeEnd s) p)
  else hostRow (fun t => txnStart t p) s

/-- The Junction repeats a response upstream, unchanged: a DATA or DATAZ that the host answers leaves the transaction open
for the handshake (R177, Table 7.5). -/
def repeatUp (s : State) (p : RawPkt) : State :=
  let s1 := { s with repUp := some p }
  if (hType p.header = 7 || hType p.header = 8) && s1.upl.txn.wantsAck then
    { s1 with upl := { s1.upl with txn := { s1.upl.txn with phase := .handshake } } }
  else txnEnd s1

/-- RESPONSE_REPEAT: the response of the routed port (R177); it is a high level on DDn, so no missed probe (09 R231). -/
def execResponseRepeat (p : RawPkt) (s : State) : Out :=
  match s.upl.txn.target with
  | .port n =>
    if s.upl.txn.phase = .turnaround && !s.upl.txn.mute && (s.port n).state = .ena then
      groupCmd 3 (fun t => repeatUp (probeSeen t n) p) s
    else .next s
  | .xlt _ => .next s
  | .portI => .next s
  | .none => .next s

/-- RESPONSE_WINDOW_CLOSE: TOCNT counts the requests the Junction repeated (Table 7.12). -/
def execResponseWindowClose (s : State) : Out :=
  if s.upl.txn.target ≠ .none && s.upl.txn.phase = .turnaround then
    groupCmd 2 (fun t =>
      match t.upl.txn.target with
      | .port _ =>
        if t.upl.txn.mute then txnEnd t else txnEnd { t with upl := { t.upl with toCnt := inc16 t.upl.toCnt } }
      | .xlt _ | .portI | .none => txnEnd t) s
  else .next s

/-- HANDSHAKE_WINDOW_CLOSE. -/
def execHandshakeWindowClose (s : State) : Out :=
  if s.upl.txn.phase = .handshake then groupCmd 2 txnEnd s else .next s

/-- One port at the babble point (09 R239). -/
def babbleOne (s : State) (n : Port) : State :=
  if (s.port n).state = .ena then
    let s1 := portBabble s n 1
    let s2 := evt { s1 with ttb := { s1.ttb with babCnt := inc16 s1.ttb.babCnt } } .ttb 4
    if s2.upl.txn.target == .port n then txnEnd s2 else s2
  else s

/-- BABBLE_POINT: `driving` names the ports that still drive their lanes (R189). -/
def execBabblePoint (driving : Byte) (s : State) : Out :=
  coreCmd (fun t => allPorts.foldl (fun a n => if driving.getLsbD n.val then babbleOne a n else a) t) s

end Sys2Proof.Machine
end

