-- ==== Sys2Proof/Machine/Regs.lean ====
section
/-! DEFINITION. The register space: where an address leads, what each register reads, and what a write of it does
(02, and the register tables of every chapter). -/

namespace Sys2Proof.Machine

/-! ### Addresses (02 Table 2.1) -/

/-- Where a word address leads: a register of a page, a filter-memory word, a retained-memory word, or nothing (R34). -/
inductive Place where
  | page (b : Blk) (off : Nat)
  | flm (c : Chan) (w : Nat)
  | rtm (w : Fin 256)
  | reserved

/-- The register page of a page number. -/
def pageOf (p : Nat) : Option Blk :=
  if p = 0x00 then some .sys else if p = 0x01 then some .pin else if p = 0x02 then some .clk
  else if p = 0x03 then some .rst else if p = 0x04 then some .opt else if p = 0x05 then some .bkp
  else if p = 0x06 then some .pwr else if p = 0x07 then some .flt else if p = 0x08 then some .upl
  else if p = 0x09 then some .hub else if p = 0x0A then some .ttb
  else if 0x10 ≤ p ∧ p ≤ 0x17 then some (.prt (Fin.ofNat 8 (p - 0x10)))
  else if p = 0x18 then some .xlt
  else if p = 0x20 then some (.jx 0) else if p = 0x21 then some (.jx 1) else if p = 0x22 then some .mbr
  else if 0x24 ≤ p ∧ p ≤ 0x27 then some (.mvf (Fin.ofNat 4 (p - 0x24)))
  else if p = 0x7F then some .dbg else none

/-- The place of a byte address, by whole words (R32). -/
def placeOf (a : Half) : Place :=
  let p := a.toNat / 256
  let off := 4 * (a.toNat % 256 / 4)
  if 0x30 ≤ p ∧ p ≤ 0x37 then .flm 0 (((a.toNat - 0x3000) / 4) % 512)
  else if 0x38 ≤ p ∧ p ≤ 0x3F then .flm 1 (((a.toNat - 0x3800) / 4) % 512)
  else if 0x40 ≤ p ∧ p ≤ 0x43 then .rtm (Fin.ofNat 256 ((a.toNat - 0x4000) / 4))
  else match pageOf p with
    | some b => .page b off
    | none => .reserved

/-- Address of a filter-memory word. -/
def flmWordAddr (c : Chan) (w : Nat) : Nat := 0x3000 + 0x800 * c.val + 4 * w

/-! ### The common header (02 §2.3) -/

/-- KIND (Table 2.1). -/
def kindOf : Blk → Nat
  | .prt _ => 0x10
  | .jx _ => 0x20
  | .mvf _ => 0x24
  | .xlt => 0x18
  | .mbr => 0x22
  | .dbg => 0x7F
  | .sys => 0x01 | .pin => 0x02 | .clk => 0x03 | .rst => 0x04 | .opt => 0x05 | .bkp => 0x06 | .pwr => 0x07
  | .flt => 0x08 | .upl => 0x09 | .hub => 0x0A | .ttb => 0x0B

/-- The page has PWR_VOTE (Table 2.1). -/
def hasVote : Blk → Bool
  | .upl | .hub | .ttb | .prt _ | .xlt | .jx _ | .mbr | .mvf _ => true
  | .sys | .pin | .clk | .rst | .opt | .bkp | .pwr | .flt | .dbg => false

/-- Port state codes (Table 2.12). -/
def pstateCode : PState → Nat
  | .off => 0 | .pwg => 1 | .dsc => 2 | .rst => 3 | .ena => 4 | .sus => 5 | .rsm => 6 | .dsb => 7 | .sid => 8

/-- BUS codes (11 Table 11.8). -/
def busCode : BusState → Nat
  | .stopped => 0 | .recovery => 1 | .idle => 2 | .receiving => 3 | .transmitting => 4 | .errorSig => 5

/-- PHASE codes (14 Table 14.8). -/
def roundCode : RoundPhase → Nat
  | .none => 0 | .voting => 1 | .agreed => 2 | .preadySent => 3

/-- A word from one bit per index. -/
def bitsOf (n : Nat) (f : Nat → Bool) : Nat := ((List.range n).map fun i => b2n (f i) <<< i).sum

/-- One bit of a port-indexed map. -/
def portMask (f : Port → Bool) : Nat := bitsOf 8 fun i => f (Fin.ofNat 8 i)

/-- PFLT_Nn reads low: it does while it has read low for the last 64 lk (09 R225), and else its level is a free value (log 6). -/
def pfltLow (s : State) (n : Port) : Bool := (s.port n).pflt || bitAt (Config.freeWord s.free) 10

/-- The block bits of STAT. -/
def statBlock (s : State) : Blk → Word
  | .sys => pack [(0, b2n s.sys.uidBad)]
  | .pin => pack [(8, b2n (fod s)), (7, b2n (iov s)), (6, b2n (fuseLocked s)), (0, fperr s)]
  | .clk => pack [(2, b2n s.clk.armed), (1, b2n s.clk.ctValid), (0, b2n s.clk.vbusy)]
  | .rst => pack [(0, b2n s.rst.borlow)]
  | .opt => pack [(4, b2n s.opt.olocked), (3, b2n s.opt.fmtbad), (2, b2n s.opt.fallback), (1, b2n s.opt.corr),
      (0, b2n s.opt.loaded)]
  | .bkp => 0
  | .pwr => pack [(6, b2n (fatal s)), (4, roundCode s.pwr.round),
      (0, if s.pwr.round = .none then 0 else (lowCode s.pwr.rstate).toNat)]
  | .flt => pack [(27, b2n (fatal s)), (26, b2n (faultLow s)), (0, s.flt.src.toNat)]
  | .upl => pack [(9, b2n s.upl.linkup), (8, b2n s.upl.x2), (0, s.hub.addr.toNat)]
  | .hub => pack [(16, b2n s.hub.brConf), (15, b2n s.hub.brPres), (8, s.hub.brAddr.toNat), (0, b2n s.hub.conf)]
  | .ttb => 0
  | .prt n =>
    let p := s.port n
    pack [(10, b2n (pfltLow s n)), (9, b2n p.pwrPend), (8, b2n p.selSusp), (7, b2n p.suspReq), (6, b2n p.debounce),
      (5, b2n p.attached), (4, b2n p.full), (0, pstateCode p.state)]
  | .xlt => pack [(8, portMask fun n => laneUsed (s.xport n)), (0, portMask fun n => translated s n)]
  | .jx c =>
    let j := s.chan c
    pack [(7, b2n j.cenRun), (6, b2n j.listenNow), (3, busCode j.bus), (0, confCode j)]
  | .mbr => pack [(2, b2n s.mbr.flow[1]), (1, b2n s.mbr.flow[0]), (0, b2n s.mbr.mirNow)]
  | .mvf i =>
    let m := s.inst i
    pack [(3, b2n (rxCurrent m).isSome), (2, b2n ((rxQueued m).any fun e => e.urg)), (1, b2n (decide (0 < rxQueuedCount m))),
      (0, b2n (txPend s i))]
  | .dbg => 0

/-- STAT (Table 2.5). -/
def statWord (s : State) (b : Blk) : Word :=
  pack [(31, b2n (siding s b)), (30, b2n (s.hdr b).inrst), (29, b2n (active s b))] ||| statBlock s b

/-- PWR_VOTE (Table 2.9). -/
def voteWord (h : Hdr) : Word := pack [(8, h.delayMax.toNat), (2, h.retain.toNat), (0, h.park.toNat)]

/-- A header register. -/
def readHeader (s : State) (b : Blk) (off : Nat) : Word :=
  let h := s.hdr b
  if off = 0x00 then pack [(16, 1), (8, kindOf b), (0, blkPage b)]
  else if off = 0x04 then pack [(0, b2n h.en)]
  else if off = 0x08 then statWord s b
  else if off = 0x0C then evtRaw s b
  else if off = 0x10 then h.evtEn
  else if off = 0x14 then h.evtPnd
  else if off = 0x18 then h.err
  else if off = 0x1C then (if (srcOf b).isSome then pack [(0, h.sev.toNat)] else 0)
  else if off = 0x20 then (if hasVote b then voteWord h else 0)
  else 0

/-! ### The event bitmap (02 R46) -/

/-- The page number has a pending event. -/
def pagePending (s : State) (p : Nat) : Bool :=
  match pageOf p with
  | some b => decide (p < 0x40) && decide ((s.hdr b).evtPnd ≠ 0)
  | none => false

/-- Byte `k` of the bitmap. -/
def bitmapByte (s : State) (k : Nat) : Byte := BitVec.ofNat 8 (bitsOf 8 fun b => pagePending s (8 * k + b))

/-- The eight bytes of the bitmap. -/
def bitmap (s : State) : List Byte := (List.range 8).map (bitmapByte s)

/-! ### What the block registers read -/

/-- Cell time as the registers show it. -/
def timeWord (f : BitVec 16) (l : BitVec 15) : Word := pack [(16, f.toNat), (0, l.toNat)]

/-- Two 16-bit counters. -/
def two (hi lo : Nat) : Word := pack [(16, hi), (0, lo)]

/-- SYS (Table 2.11). -/
def readSys (s : State) (off : Nat) : Word :=
  if off = 0x40 then 0x00004F44#32
  else if off = 0x44 then 0x00010820#32
  else if off = 0x48 then 0x00000011#32
  else if off = 0x4C then 0x00054228#32
  else if off = 0x50 then s.sys.uid.setWidth 32
  else if off = 0x54 then (s.sys.uid >>> 32).setWidth 32
  else if off = 0x58 then 0x01FF07FF#32
  else if off = 0x5C then 0xFFFF00F7#32
  else if off = 0x60 then 0x0000000F#32
  else if off = 0x64 then 0x80000000#32
  else if off = 0x68 then wordAt (bitmap s) 0
  else if off = 0x6C then wordAt (bitmap s) 4
  else if off = 0x70 then s.sys.scratch
  else 0

/-- A word of which the spec fixes the bits of `known`: the others are free values (03 R76, R426; log 6). -/
def openBits (s : State) (known out : Word) : Word := (out &&& known) ||| (Config.freeWord s.free &&& ~~~known)

/-- PIN_IN (0x0158): the levels of 2 lk before. What comes from outside is a free value; UD0 is high while the hub drives it so,
PFLT_Nn low where it has read low for 64 lk, and TEST is tied to ground (03 R72, R76, 09 R225; log 6). -/
def pinIn (s : State) : Word :=
  let p := s.pins.pads[2]
  let ud0 := BitVec.ofNat 32 (b2n p.ud0 <<< 16)
  let pflt := BitVec.ofNat 32 (portMask (fun n => (s.port n).pflt) <<< 8)
  openBits s (0xFFC00000#32 ||| ud0 ||| pflt ||| p.ddKnown.setWidth 32) (ud0 ||| p.dd.setWidth 32)

/-- The pad-level register (0x015C): the levels of 2 lk before. -/
def pinPads (s : State) : Word :=
  let p := s.pins.pads[2]
  openBits s (0xFFFF8000#32 ||| p.known.setWidth 32) (p.out.setWidth 32)

/-- FUSED and DDFUSED (0x0160). -/
def pinFused (s : State) : Word :=
  let f (p : CPin) : Nat := b2n (fusedCode s p).isSome
  pack [(0, portMask fun n => (fusedCode s (.pwren n)).isSome), (8, f (.flow 0)), (9, f (.flow 1)), (10, f .vsel0),
    (11, f .vsel1), (12, f .fault), (13, f (.msgS 0)), (14, f (.msgS 1)),
    (15, portMask fun n => (fusedCode s (.dd n)).isSome)]

/-- PIN (03 Table 3.9). -/
def readPin (s : State) (off : Nat) : Word :=
  if 0x40 ≤ off ∧ off ≤ 0x54 then s.pins.fuse[(Fin.ofNat 6 ((off - 0x40) / 4))]
  else if off = 0x58 then pinIn s
  else if off = 0x5C then pinPads s
  else if off = 0x60 then pinFused s
  else if off = 0x68 then
    pack [(31, b2n s.pins.fpCmd.isSome), (2, s.pins.fpLastBit), (1, b2n s.pins.fpRefused), (0, b2n s.pins.fpValue)]
  else 0

/-- CLK (04 Table 4.6). -/
def readClk (s : State) (off : Nat) : Word :=
  let k := s.clk
  if off = 0x40 then pack [(8, k.cur.val), (4, k.vcode.val), (0, k.req.val)]
  else if off = 0x44 then pack [(8, k.vto), (0, k.vmin)]
  else if off = 0x48 then timeWord k.frame k.lk
  else if off = 0x50 then timeWord k.snapFrame k.snapLk
  else if off = 0x54 then pack [(12, k.tierNow), (10, k.adjNow), (4, k.adj), (0, k.tier)]
  else if off = 0x58 then pack [(16, k.slipCnt), (0, (BitVec.ofInt 16 k.slipDelta).toNat)]
  else if off = 0x5C then pack [(0, k.fsMissCnt)]
  else if off = 0x60 then pack [(16, k.divNow[0]), (0, k.div[0])]
  else if off = 0x64 then pack [(16, k.divNow[1]), (0, k.div[1])]
  else if 0x70 ≤ off ∧ off ≤ 0x8C then
    let t := k.trim[(Fin.ofNat 8 ((off - 0x70) / 4))]
    pack [(24, t.rxNow.toNat), (16, t.outNow.toNat), (8, t.rx.toNat), (0, t.out.toNat)]
  else if off = 0x90 then pack [(24, k.ud1Now.toNat), (16, k.ud0Now.toNat), (8, k.ud1.toNat), (0, k.ud0.toNat)]
  else 0

/-- RST (05 Table 5.10). -/
def readRst (s : State) (off : Nat) : Word :=
  let r := s.rst
  if off = 0x40 then
    pack [(15, b2n r.fesc), (12, r.causeReach.toNat), (8, r.causeFirst.toNat), (0, r.causeSrc.toNat)]
  else if off = 0x44 then pack [(0, r.count)]
  else if off = 0x48 then pack [(8, r.lkpKind.toNat), (0, r.lkpBlock.toNat)]
  else if off = 0x4C then pack [(16, r.blkCount), (8, b2n r.blkFlr), (0, r.blkBlock.toNat)]
  else if off = 0x54 then
    pack [(16, r.wdgPeriod), (8, r.wdgWarn), (2, b2n r.wdgLock), (1, b2n r.wdgBadwarn), (0, b2n r.wdgEn)]
  else if off = 0x5C then pack [(16, b2n r.wdgArmed), (0, r.wdgFrames)]
  else if off = 0x60 then pack [(0, r.bringup)]
  else 0

/-- RESULT codes (05 Table 5.12). -/
def condCode : CwCond → Nat
  | .clean => 0 | .corrected => 1 | .uncorrectable => 2

/-- OPT (05 Table 5.12). -/
def readOpt (s : State) (off : Nat) : Word :=
  let o := s.opt
  if 0x40 ≤ off ∧ off ≤ 0xBC then o.shadow[(Fin.ofNat 32 ((off - 0x40) / 4))]
  else if off = 0xC0 then two o.cwUnc.toNat o.cwCor.toNat
  else if off = 0xC4 then o.pdata0
  else if off = 0xC8 then o.pdata1
  else if off = 0xD0 then
    pack [(31, b2n o.cmd.isSome), (8, b2n o.refused), (4, condCode o.result), (0, o.lastCw.val)]
  else if off = 0xD4 then o.vdata0
  else if off = 0xD8 then o.vdata1
  else 0

/-- BKP (05 Table 5.13). -/
def readBkp (s : State) (off : Nat) : Word :=
  if 0x40 ≤ off ∧ off ≤ 0x7C then s.bkp.bkp[(Fin.ofNat 16 ((off - 0x40) / 4))]
  else if off = 0x80 then pack [(8, b2n s.bkp.lock), (0, s.bkp.wp.toNat)]
  else if off = 0x84 then pack [(8, s.bkp.errCount), (0, s.bkp.errWord.toNat)]
  else 0

/-- PWR (14 Table 14.9). -/
def readPwr (s : State) (off : Nat) : Word :=
  let p := s.pwr
  let a := s.aon
  if off = 0x44 then pack [(0, p.idleLimit)]
  else if off = 0x48 then pack [(0, p.idleCnt)]
  else if off = 0x4C then (if p.round = .none then 0 else (~~~p.consented).setWidth 32)
  else if off = 0x50 then two p.entries p.refused
  else if off = 0x54 then pack [(12, p.refState.toNat), (8, p.refReason.toNat), (0, p.refBlock.toNat)]
  else if off = 0x60 then pack [(8, a.wkFrom.toNat), (7, b2n a.wkLatepg), (6, b2n a.wkReplay), (0, a.wkSrc.toNat)]
  else if off = 0x64 then a.wkSet.setWidth 32
  else if off = 0x68 then timeWord a.wkFrame a.wkLk
  else if off = 0x6C then a.wakeEn.setWidth 32
  else if off = 0x70 then a.hrnMask.setWidth 32
  else if off = 0x74 then a.hrnExp.setWidth 32
  else if off = 0x78 then pack [(0, a.confirm)]
  else if off = 0x7C then a.sample.setWidth 32
  else if off = 0x80 then a.diff.setWidth 32
  else if off = 0x84 then pack [(24, a.short), (0, a.bursts)]
  else if off = 0x88 then pack [(0, a.miss)]
  else 0

/-- The unit of a fault source is in Siding (15 Table 15.11, FLT_SIDING). -/
def unitSiding (s : State) (k : Nat) : Bool :=
  if k < 16 then siding s (srcBlk (Fin.ofNat 21 k)) else if k = 17 ∨ k = 18 then siding s .pwr else false

/-- FLT (15 Table 15.11). -/
def readFlt (s : State) (off : Nat) : Word :=
  let f := s.flt
  if off = 0x40 then f.mode.setWidth 32
  else if off = 0x44 then pack [(8, b2n f.lock), (0, f.pinsev.toNat)]
  else if off = 0x48 then pack ((List.finRange 21).filterMap fun k => if k.val < 16 then some (2 * k.val, f.lsev[k].toNat) else none)
  else if off = 0x4C then
    pack ((List.finRange 21).filterMap fun k => if k.val < 16 then none else some (2 * (k.val - 16), f.lsev[k].toNat))
  else if off = 0x50 then timeWord f.lastFrame f.lastLk
  else if off = 0x54 then
    pack [(31, b2n f.lvalid), (24, f.lsrc.toNat), (22, f.lsevl.toNat), (15, b2n f.fvalid), (8, f.fsrc.toNat), (0, f.lblock.toNat)]
  else if off = 0x58 then two f.fences f.react
  else if off = 0x60 then pack [(0, bitsOf 21 (unitSiding s))]
  else 0

/-- UPL (07 Table 7.12). -/
def readUpl (s : State) (off : Nat) : Word :=
  let u := s.upl
  if off = 0x40 then two u.dcrcCnt u.hcrcCnt
  else if off = 0x44 then two u.dupCnt u.maskCnt
  else if off = 0x48 then two u.x2Cnt u.nrtCnt
  else if off = 0x4C then two u.protoCnt u.toCnt
  else if off = 0x50 then pack [(1, b2n u.x1Now), (0, b2n u.x1Only)]
  else 0

/-- RESULT codes (08 Table 8.13). -/
def resultCode : TagResult → Nat
  | .empty => 0 | .complete => 1 | .refused => 2 | .incomplete => 3

/-- LEN4: LENGTH / 4 − 1; for a refused request whose LENGTH the field cannot show, a free value (R206; log 4). -/
def tagLen4 (t : TagEntry) : Nat :=
  if t.len % 4 = 0 && decide (4 ≤ t.len) && decide (t.len ≤ 64) then t.len / 4 - 1 else (Config.freeLen4 t.len).toNat

/-- A window entry as HUB_TAGk shows it. -/
def tagWord (t : TagEntry) : Word :=
  pack [(16, t.index.toNat), (12, tagLen4 t), (11, b2n t.fixed), (10, if t.func = .bridge then 1 else 0),
    (8, resultCode t.result), (4, if t.result = .incomplete then t.done else 0), (0, t.tag)]

/-- Route nibbles of addresses 8k to 8k + 7; the nibble of address 127 reads 0xF (R194). -/
def routeWord (s : State) (k : Nat) : Word :=
  pack ((List.range 8).map fun i => (4 * i, (s.hub.routes.toList.getD (8 * k + i) 0xF#4).toNat))

/-- HUB (08 Table 8.13). -/
def readHub (s : State) (off : Nat) : Word :=
  let h := s.hub
  if off = 0x40 then pack [(0, b2n h.ep1All)]
  else if off = 0x44 then two h.stallCnt h.replayCnt
  else if off = 0x48 then pack [(16, h.badReason.toNat), (8, h.badRequest.toNat), (0, h.badRtype.toNat)]
  else if 0x50 ≤ off ∧ off ≤ 0x6C then tagWord h.tags[(Fin.ofNat 8 ((off - 0x50) / 4))]
  else if 0x70 ≤ off ∧ off ≤ 0xAC then routeWord s ((off - 0x70) / 4)
  else 0

/-- TTB (07 Table 7.14). -/
def readTtb (s : State) (off : Nat) : Word :=
  let t := s.ttb
  if off = 0x40 then pack [(0, b2n t.enf)]
  else if 0x44 ≤ off ∧ off ≤ 0x64 then
    let k : Fin 9 := Fin.ofNat 9 ((off - 0x44) / 4)
    two t.now[k] t.res[k]
  else if off = 0x68 then pack [(0, ttbFree s)]
  else if off = 0x6C then two (min 0x7FFF t.lastOther) (min 0x7FFF t.lastSched)
  else if off = 0x70 then two t.ovrCnt t.cutCnt
  else if off = 0x74 then pack [(0, t.babCnt)]
  else 0

/-- PRTn (09 Table 9.5). -/
def readPrt (s : State) (n : Port) (off : Nat) : Word :=
  let p := s.port n
  if off = 0x40 then
    pack [(12, p.misslim), (8, b2n p.wakeen), (4, p.settle.toNat), (1, p.speed.toNat), (0, b2n p.power)]
  else if off = 0x44 then pack [(4, p.settleNow.toNat), (1, p.speedNow.toNat), (0, b2n p.powerNow)]
  else if off = 0x4C then pack [(8, pstateCode p.rejState), (0, p.rejCmd.toNat)]
  else if off = 0x50 then two p.discCnt p.ovcCnt
  else if off = 0x54 then two p.wakeCnt p.babCnt
  else if off = 0x58 then timeWord p.chgFrame p.chgLk
  else if off = 0x5C then pack [(8, p.misses), (0, p.cause.toNat)]
  else 0

/-- Bank state codes (10 Table 10.7). -/
def bankCode (b : Bank) : Nat :=
  match b.state with
  | .free => 0
  | .opened => 1
  | .closed => 2

/-- XLT (10 Table 10.7). -/
def readXlt (s : State) (off : Nat) : Word :=
  let x := s.xlt
  if off = 0x40 then pack [(16, x.prefetch.toNat), (8, x.retryLim), (0, x.backoff)]
  else if 0x50 ≤ off ∧ off ≤ 0x6C then
    let p := s.xport (Fin.ofNat 8 ((off - 0x50) / 4))
    pack [(24, (p.items.filter fun i => !i.isIn).length), (22, bankCode p.ib[1]), (20, bankCode p.ib[0]),
      (18, bankCode p.ob[1]), (16, bankCode p.ob[0]), (8, inFree p), (0, outFree p)]
  else if 0x70 ≤ off ∧ off ≤ 0x8C then
    let p := s.xport (Fin.ofNat 8 ((off - 0x70) / 4))
    two p.inHalt.toNat p.outHalt.toNat
  else if 0x90 ≤ off ∧ off ≤ 0xAC then
    let p := s.xport (Fin.ofNat 8 ((off - 0x90) / 4))
    two p.inDone p.outDone
  else if off = 0xB0 then two x.ovszCnt x.ovcrCnt
  else if off = 0xB4 then two x.noinCnt x.dropCnt
  else if off = 0xB8 then two x.inlenCnt x.lostCnt
  else 0

/-- The table entry that CENSEL selects. -/
def cenEntry (j : Jx) : CenEntry := j.cenTable.getD j.cenSel.val ⟨0, 0⟩

/-- JXx (11 Table 11.10). -/
def readJx (s : State) (c : Chan) (off : Nat) : Word :=
  let j := s.chan c
  if off = 0x40 then pack [(8, j.cenRetry), (2, b2n j.cenAuto), (1, b2n j.autoRcv), (0, b2n j.listen)]
  else if off = 0x48 then pack [(24, j.runs), (16, j.recv), (0, j.tec)]
  else if off = 0x4C then two j.stuffCnt j.bitCnt
  else if off = 0x50 then two j.formCnt j.crcCnt
  else if off = 0x54 then two j.arbLost j.ackCnt
  else if off = 0x58 then two j.txOk j.rxOk
  else if off = 0x5C then pack [(8, j.errBit.toNat), (4, j.errField.toNat), (3, b2n j.errRole), (0, j.errKind.toNat)]
  else if off = 0x60 then pack [(16, j.boCnt), (12, j.rcvResult.toNat), (0, j.rcvStrobes)]
  else if off = 0x64 then
    pack [(19, b2n j.cenAbort), (18, b2n j.cenOvf), (17, b2n j.cenIncomplete), (16, b2n j.cenDone),
      (8, j.cenTable.length), (0, j.cnum.toNat)]
  else if off = 0x68 then pack [(0, j.cenSel.val)]
  else if off = 0x6C then (cenEntry j).uid.setWidth 32
  else if off = 0x70 then two (cenEntry j).info.toNat ((cenEntry j).uid >>> 32).toNat
  else if off = 0x74 then j.helloUid.setWidth 32
  else if off = 0x78 then two j.helloInfo.toNat (j.helloUid >>> 32).toNat
  else if off = 0x7C then pack [(16, j.flmCnt), (0, j.flmWord.toNat)]
  else 0

/-- TXCURA and TXCURB (12 Table 12.9): the frame of a buffer on the wire of the channel. -/
def txCur (s : State) (c : Chan) : Word :=
  match (s.chan c).wire with
  | .buf i b =>
    let t := (s.inst i).buf (bufIx c b)
    pack [(31, 1), (30, b2n (t.state == .orphan)), (28, i.val), (26, b.val), (0, t.id.toNat)]
  | .none => 0
  | .census => 0

/-- RSTRECA and RSTRECB. -/
def wireWord (r : WireRec) : Word :=
  pack [(31, b2n r.valid), (30, b2n r.sent), (28, r.inst.val), (26, r.buf.val), (0, r.id.toNat)]

/-- MBR (12 Table 12.9, 13 Table 13.5). -/
def readMbr (s : State) (off : Nat) : Word :=
  let m := s.mbr
  if off = 0x40 then pack [(0, b2n m.mirror)]
  else if off = 0x44 then txCur s 0
  else if off = 0x48 then txCur s 1
  else if off = 0x4C then pack [(16, m.rrRxret), (8, m.rrCanc), (0, m.rrBlock.toNat)]
  else if off = 0x50 then pack [(16, m.rrRxdrop), (0, m.rrStaged)]
  else if off = 0x54 then wireWord m.wireRec[0]
  else if off = 0x58 then wireWord m.wireRec[1]
  else if off = 0x5C then two m.mirdrop m.rstCnt
  else if off = 0x80 then pack [(0, b2n m.mirAct)]
  else if off = 0x84 then pack [(18, m.defAct[0].toNat)]
  else if off = 0x88 then pack [(18, m.defAct[1].toNat)]
  else if 0x8C ≤ off ∧ off ≤ 0x98 then
    let i : Inst := Fin.ofNat 4 ((off - 0x8C) / 4)
    two m.qMax[i] m.qMin[i]
  else if off = 0x9C then two (poolFree s - reservedAll s) (poolFree s)
  else if off = 0xA0 then two m.wmHi[0] m.wmLo[0]
  else if off = 0xA4 then two m.wmHi[1] m.wmLo[1]
  else if off = 0xA8 then two (chUse s 1) (chUse s 0)
  else if 0xAC ≤ off ∧ off ≤ 0xB8 then
    let i : Inst := Fin.ofNat 4 ((off - 0xAC) / 4)
    two m.lost[i] m.dupCnt[i]
  else if off = 0xBC then two m.seq[1].toNat m.seq[0].toNat
  else if off = 0xC0 then two m.rej[1] m.rej[0]
  else if off = 0xC4 then two m.flowCnt[1] m.flowCnt[0]
  else 0

/-- State codes (12 Table 12.2). -/
def bufCode : BufState → Nat
  | .free => 0 | .full => 1 | .wire => 2 | .done => 3 | .orphan => 4

/-- MVFn (12 Table 12.11, 13 Table 13.7). -/
def readMvf (s : State) (i : Inst) (off : Nat) : Word :=
  let m := s.inst i
  if off = 0x40 then pack [(24, m.hdrLen.toNat), (0, m.hdrId.toNat)]
  else if 0x48 ≤ off ∧ off ≤ 0x84 then m.txData[(Fin.ofNat 16 ((off - 0x48) / 4))]
  else if off = 0x88 then
    pack ((24, m.cq.length) :: allSix.map fun k => (4 * k.val, 8 * b2n (m.buf k).canreq + bufCode (m.buf k).state))
  else if off = 0x8C then (match m.cq with
    | [] => 0
    | r :: _ => crecWord r)
  else if off = 0x90 then pack [(8, m.errlim), (1, b2n m.ordB), (0, b2n m.ordA)]
  else if off = 0x94 then
    pack [(24, m.flushed), (22, m.nxt[1].val), (20, m.nxt[0].val), (18, m.fill[1].val), (16, m.fill[0].val), (0, stagedBytes m)]
  else if off = 0x98 then pack [(8, m.rejTag.toNat), (4, b2n m.rejSrc), (0, m.rejReason.toNat)]
  else if off = 0x9C then two m.sentCnt m.rejCnt
  else if 0xA0 ≤ off ∧ off ≤ 0xEC then winWord s i ((off - 0xA0) / 4)
  else if off = 0xF8 then
    pack [(24, m.waitLim), (16, m.ageLim), (2, m.bankSize), (1, b2n m.cmode), (0, b2n m.qorg)]
  else if off = 0xFC then pack [(26, m.dbank.val), (16, m.rx.length), (0, rxQueuedCount m)]
  else 0

/-- PORT of the transaction (02 Table 2.12). -/
def targetCode : Target → Nat
  | .port n => n.val
  | .xlt n => n.val
  | .portI => 8
  | .none => 0xF

/-- PHASE (02 Table 2.12). -/
def phaseCode : JPhase → Nat
  | .idle => 0 | .request => 1 | .turnaround => 2 | .response => 3 | .handshake => 4

/-- The current transaction goes to the translator. -/
def toXlt : Target → Bool
  | .xlt _ => true
  | .port _ => false
  | .portI => false
  | .none => false

/-- Blocks that work on nothing have no internal request outstanding: every participant other than the upstream port and the hub
function, which serve the read itself, is idle (14 R367; DEDUCED, log 4). -/
def noRequests (s : State) : Bool := (List.finRange 21).all fun p => decide (p.val < 2) || !busy s p

/-- REQAGE: 0 with no request outstanding. A request is no older than the release of group 1 (05 R126); within that its age is a free
value, because a request of the model is one command (log 4). -/
def reqAge (s : State) : Nat :=
  if noRequests s then 0
  else (Config.freeWord s.free).toNat % (min 0x10000 (s.now - s.rst.startedAt) + 1)

/-- DBG (02 Table 2.12). -/
def readDbg (s : State) (off : Nat) : Word :=
  if off = 0x40 then
    pack [(8, b2n (toXlt s.upl.txn.target)), (4, phaseCode s.upl.txn.phase), (0, targetCode s.upl.txn.target)]
  else if off = 0x44 then pack (allPorts.map fun n => (4 * n.val, pstateCode (s.port n).state))
  else if off = 0x48 then timeWord s.clk.frame s.clk.lk
  else if off = 0x4C then two s.dbg.uncorr s.dbg.corr
  else if off = 0x50 then pack [(16, b2n s.dbg.lastUnc), (0, s.dbg.lastAddr.toNat)]
  else if off = 0x54 then two s.dbg.lowest (poolFree s)
  else if off = 0x58 then pack [(0, reqAge s)]
  else 0

/-- A block register at offset 0x40 or above. -/
def readBlock (s : State) (b : Blk) (off : Nat) : Word :=
  match b with
  | .sys => readSys s off
  | .pin => readPin s off
  | .clk => readClk s off
  | .rst => readRst s off
  | .opt => readOpt s off
  | .bkp => readBkp s off
  | .pwr => readPwr s off
  | .flt => readFlt s off
  | .upl => readUpl s off
  | .hub => readHub s off
  | .ttb => readTtb s off
  | .prt n => readPrt s n off
  | .xlt => readXlt s off
  | .jx c => readJx s c off
  | .mbr => readMbr s off
  | .mvf i => readMvf s i off
  | .dbg => readDbg s off

/-! ### Reset values during a Block reset (02 R38) -/

/-- The reset value of a register of a page that can be in Block reset. -/
def resetWord (s : State) (b : Blk) (off : Nat) : Word :=
  if off = 0x10 then 0x80000000
  else if off = 0x1C then (if (srcOf b).isSome then pack [(0, (sevReset b).toNat)] else 0)
  else if off = 0x20 then (if hasVote b then 0x1000 else 0)
  else match b with
  | .prt n =>
    let p := portInit s n
    if off = 0x40 then pack [(12, 4), (4, p.settle.toNat), (1, p.speed.toNat), (0, b2n p.power)]
    else if off = 0x44 then pack [(4, p.settleNow.toNat), (1, p.speedNow.toNat)]
    else 0
  | .xlt => if off = 0x40 then 4 else 0
  | .jx c =>
    let j := chanInit s c true
    if off = 0x40 then pack [(8, 3), (2, b2n j.cenAuto), (1, b2n j.autoRcv)] else 0
  | .mbr =>
    if off = 0x40 then pack [(0, b2n ((optByte s 0x30).getLsbD 1))]
    else if 0x8C ≤ off ∧ off ≤ 0x98 then two 128 0
    else if off = 0x9C then two 512 512
    else 0
  | .mvf i =>
    let m := mvfOpt s i
    if off = 0xF8 then pack [(16, 0x10), (1, b2n m.cmode), (0, b2n m.qorg)] else 0
  | .ttb => if off = 0x68 then 24576 else 0
  | .pwr =>
    if off = 0x44 then pack [(0, (optByte s 0x14).toNat + 256 * (optByte s 0x15).toNat)]
    else if off = 0x6C then 0x300002
    else if off = 0x74 then 0x3FF00
    else if off = 0x78 then 1
    else 0
  | .flt => if off = 0x44 then 2 else 0
  | .sys | .pin | .clk | .rst | .opt | .bkp | .upl | .hub | .dbg => 0

/-! ### Reads -/

/-- What a register of a page reads. -/
def readPage (s : State) (b : Blk) (off : Nat) : Word :=
  if (s.hdr b).inrst && decide (0x0C ≤ off) then resetWord s b off
  else if off < 0x40 then readHeader s b off
  else readBlock s b off

/-- What an address reads (R13, R34). -/
def readWord (s : State) (a : Half) : Word :=
  match placeOf a with
  | .page b off => readPage s b off
  | .flm c w => memWord s.mem (flmWordAddr c w)
  | .rtm w => memWord s.mem (rtmAddr w)
  | .reserved => 0

/-- What a sample of an address does at once: the selection of RXWIN0 (13 R350), a failing parity bit (`bad` lists the
addresses that fail; 05 R132, 13 R339), and the free values that a live register draws. -/
def sampleEffect (s : State) (a : Half) (bad : List Half) : State :=
  match placeOf a with
  | .page (.mvf i) 0xA0 => if (s.hdr (.mvf i)).inrst then s else winTake s i
  | .page _ _ => nextFree s
  | .flm c w => if bad.contains a || s.parBad.contains (flmWordAddr c w) then flmPar s c w else s
  | .rtm w => rtmCheck s w (!bad.contains a)
  | .reserved => s

/-- The read side effect of an RC word: the record that TXCOMP returned is removed, RXWIN19 releases the current entry
(12 R317, 13 R351). Neither acts during the page's Block reset. -/
def readEffect (s : State) (a : Half) : State :=
  match placeOf a with
  | .page (.mvf i) off =>
    if (s.hdr (.mvf i)).inrst then s
    else if off = 0x8C then txcompPop s i
    else if off = 0xEC then winRelease s i
    else s
  | .page _ _ => s
  | .flm _ _ => s
  | .rtm _ => s
  | .reserved => s

/-- The word is an RXWIN0 that finds no item (R352). -/
def wordWaits (s : State) (a : Half) : Bool :=
  match placeOf a with
  | .page (.mvf i) 0xA0 => !(s.hdr (.mvf i)).inrst && winEmpty s i
  | .page _ _ => false
  | .flm _ _ => false
  | .rtm _ => false
  | .reserved => false

/-- Sample the words of a request in order. -/
def sampleAll (bad : List Half) : List Half → State → List Word × State
  | [], s => ([], s)
  | a :: r, s =>
    let s1 := match placeOf a with
      | .page (.mvf _) 0xA0 => sampleEffect s a bad
      | .page _ _ => s
      | .flm _ _ => s
      | .rtm _ => s
      | .reserved => s
    let w := readWord s1 a
    let s2 := match placeOf a with
      | .page (.mvf _) 0xA0 => s1
      | .page _ _ => sampleEffect s1 a bad
      | .flm _ _ => sampleEffect s1 a bad
      | .rtm _ => sampleEffect s1 a bad
      | .reserved => s1
    let t := sampleAll bad r s2
    (w :: t.1, t.2)

/-! ### Writes -/

/-- A write of a header register. -/
def writeHeader (s : State) (b : Blk) (off : Nat) (w : Word) : State :=
  if off = 0x04 then ctlWrite s b w
  else if off = 0x08 then (match b with
    | .flt => fltClear s w
    | .sys | .pin | .clk | .rst | .opt | .bkp | .pwr | .upl | .hub | .ttb | .prt _ | .xlt | .jx _ | .mbr | .mvf _
    | .dbg => s)
  else if off = 0x10 then s.modHdr b fun h => { h with evtEn := w }
  else if off = 0x14 then s.modHdr b fun h => { h with evtPnd := w1c h.evtPnd h.evtNew w }
  else if off = 0x18 then s.modHdr b fun h => { h with err := w1c h.err h.errNew w }
  else if off = 0x1C then (if (srcOf b).isSome then s.modHdr b fun h => { h with sev := w.setWidth 2 } else s)
  else if off = 0x20 then
    (if hasVote b then s.modHdr b fun h =>
      { h with delayMax := w.extractLsb' 8 8, retain := w.extractLsb' 2 2, park := w.setWidth 2 } else s)
  else s

/-- PIN_FPROG through the register file: whether VPP is good is a free value (03 R69; log 6). -/
def writePin (s : State) (off : Nat) (w : Word) : State :=
  if off = 0x64 then fprogWrite (nextFree s) w (Config.freeBit s.free) else s

/-- CLK (04 Table 4.6). -/
def writeClk (s : State) (off : Nat) (w : Word) : State :=
  if off = 0x40 then lvlWrite s (Fin.ofNat 4 (fld w 0 2))
  else if off = 0x44 then { s with clk := { s.clk with vto := fld w 8 6, vmin := fld w 0 8 } }
  else if off = 0x4C then (if bitAt w 0 then capTime s else s)
  else if off = 0x54 then
    let t := fld w 0 3
    { s with clk := { s.clk with adj := fld w 4 2, tier := if t = 0 ∨ 5 < t then s.clk.tier else t } }
  else if off = 0x60 then divWrite s 0 w
  else if off = 0x64 then divWrite s 1 w
  else if 0x70 ≤ off ∧ off ≤ 0x8C then
    let n : Port := Fin.ofNat 8 ((off - 0x70) / 4)
    let t : Trim := { s.clk.trim[n] with out := w.setWidth 4, rx := w.extractLsb' 8 5 }
    { s with clk := { s.clk with trim := s.clk.trim.set n.val t n.isLt } }
  else if off = 0x90 then { s with clk := { s.clk with ud0 := w.setWidth 5, ud1 := w.extractLsb' 8 5 } }
  else s

/-- RST_WDG_CFG (05 R125, Table 5.10). -/
def wdgWrite (s : State) (w : Word) : State :=
  let s1 := { s with rst := { s.rst with wdgWarn := fld w 8 8 } }
  wdgRearm (if s.rst.wdgLock then s1
    else { s1 with rst := { s1.rst with
      wdgPeriod := fld w 16 16, wdgLock := bitAt w 2, wdgBadwarn := bitAt w 1, wdgEn := bitAt w 0 } })

/-- RST (05 Table 5.10). -/
def writeRst (s : State) (off : Nat) (w : Word) : State :=
  if off = 0x40 then { s with rst := { s.rst with causeSrc := s.rst.causeSrc &&& ~~~(w.setWidth 8) } }
  else if off = 0x50 then swrWrite s (w.extractLsb' 16 16)
  else if off = 0x54 then wdgWrite s w
  else if off = 0x58 then kickWrite s (w.setWidth 8)
  else s

/-- OPT (05 Table 5.12); the level of VPP is a free value (log 6). -/
def writeOpt (s : State) (off : Nat) (w : Word) : State :=
  if off = 0xC4 then { s with opt := { s.opt with pdata0 := w } }
  else if off = 0xC8 then { s with opt := { s.opt with pdata1 := w } }
  else if off = 0xCC then optWrite (nextFree s) w (Config.freeBit s.free)
  else s

/-- BKP (05 Table 5.13). -/
def writeBkp (s : State) (off : Nat) (w : Word) : State :=
  if 0x40 ≤ off ∧ off ≤ 0x7C then
    let k : Fin 16 := Fin.ofNat 16 ((off - 0x40) / 4)
    { s with bkp := { s.bkp with bkp := s.bkp.bkp.set k.val w k.isLt } }
  else if off = 0x80 then
    (if s.bkp.lock then s else { s with bkp := { s.bkp with wp := w.setWidth 4, lock := bitAt w 8 } })
  else s

/-- The state that PWR_REQ names. -/
def lowOf (k : Nat) : Option LowState :=
  if k = 1 then some .park else if k = 2 then some .retain else if k = 3 then some .heron else none

/-- PWR (14 Table 14.9). A request waits for the DATAZ of the write's status stage (R370). -/
def writePwr (s : State) (off : Nat) (w : Word) : State :=
  if off = 0x40 then (match lowOf (fld w 0 2) with
    | some l => { s with pwr := { s.pwr with reqHeld := some l } }
    | none => s)
  else if off = 0x44 then { s with pwr := { s.pwr with idleLimit := fld w 0 16 } }
  else if off = 0x6C then { s with aon := { s.aon with wakeEn := (w.setWidth 22 &&& 0x0FFFFC#22) ||| 0x300002#22 } }
  else if off = 0x70 then { s with aon := { s.aon with hrnMask := w.setWidth 18 } }
  else if off = 0x74 then { s with aon := { s.aon with hrnExp := w.setWidth 18 } }
  else if off = 0x78 then { s with aon := { s.aon with confirm := fld w 0 4 } }
  else s

/-- FLT (15 Table 15.11). -/
def writeFlt (s : State) (off : Nat) (w : Word) : State :=
  if off = 0x40 then (if s.flt.lock then s else { s with flt := { s.flt with mode := w.setWidth 21 } })
  else if off = 0x44 then
    (if s.flt.lock then s else { s with flt := { s.flt with pinsev := w.setWidth 2, lock := bitAt w 8 } })
  else if off = 0x5C then (if bitAt w 0 then pwrUnf s else s)
  else s

/-- Address `a` keeps its route whatever is written: address 0, a function's address, and 127 (08 R194, R195). -/
def routeProtected (s : State) (a : Nat) : Bool :=
  a = 0 || a = 127 || a = s.hub.addr.toNat || s.hub.addrOld.any (fun x => x.toNat = a) ||
    (s.hub.brPres && (a = s.hub.brAddr.toNat || s.hub.brAddrOld.any (fun x => x.toNat = a)))

/-- One route nibble. -/
def setRoute (s : State) (a : Nat) (r : BitVec 4) : State :=
  if h : a < 128 then
    (if routeProtected s a then s else { s with hub := { s.hub with routes := s.hub.routes.set a r h } })
  else s

/-- HUB (08 Table 8.13). -/
def writeHub (s : State) (off : Nat) (w : Word) : State :=
  if off = 0x40 then { s with hub := { s.hub with ep1All := bitAt w 0 } }
  else if 0x70 ≤ off ∧ off ≤ 0xAC then
    (List.range 8).foldl (fun a i => setRoute a (2 * (off - 0x70) + i) (w.extractLsb' (4 * i) 4)) s
  else s

/-- TTB (07 Table 7.14). -/
def writeTtb (s : State) (off : Nat) (w : Word) : State :=
  if off = 0x40 then { s with ttb := { s.ttb with enf := bitAt w 0 } }
  else if 0x44 ≤ off ∧ off ≤ 0x64 then resWrite s (Fin.ofNat 9 ((off - 0x44) / 4)) w
  else s

/-- PRTn (09 Table 9.5). Whether a RESUME meets the quiet window is a free value here (log 4). -/
def writePrt (s : State) (n : Port) (off : Nat) (w : Word) : State :=
  if off = 0x40 then s.modPort n fun p =>
    { p with misslim := fld w 12 4, wakeen := bitAt w 8, settle := w.extractLsb' 4 2, speed := w.extractLsb' 1 2,
             power := bitAt w 0 }
  else if off = 0x48 then portCmd (nextFree s) n (w.setWidth 4) (Config.freeBit s.free)
  else s

/-- XLT (10 Table 10.7). -/
def writeXlt (s : State) (off : Nat) (w : Word) : State :=
  if off = 0x40 then
    { s with xlt := { s.xlt with prefetch := w.extractLsb' 16 8, retryLim := fld w 8 8, backoff := fld w 0 8 } }
  else if off = 0x44 then dropItems s w
  else s

/-- JXx_CMD: the bits act in their order, RECOVER first (11 Table 11.10; log 30). -/
def jxCommand (s : State) (c : Chan) (w : Word) : State :=
  let s1 := if bitAt w 0 then s.modChan c fun j =>
      if j.busOff && !j.counting then { j with counting := true, runs := 0, recs := 0 } else j
    else s
  let s2 := if bitAt w 1 then (if cenRefused s1 c then evt s1 (.jx c) 6 else cenBegin s1 c) else s1
  if bitAt w 2 then cenAbort s2 c else s2

/-- JXx (11 Table 11.10). -/
def writeJx (s : State) (c : Chan) (off : Nat) (w : Word) : State :=
  if off = 0x40 then s.modChan c fun j =>
    { j with cenRetry := fld w 8 4, autoRcv := bitAt w 1, listen := bitAt w 0 }
  else if off = 0x44 then jxCommand s c w
  else if off = 0x68 then s.modChan c fun j => { j with cenSel := Fin.ofNat 32 (fld w 0 5) }
  else s

/-- MBR_CFG (12 R321, Table 12.9). -/
def mbrCfgWrite (s : State) (w : Word) : State :=
  let s1 := if bitAt w 31 then lowClear s else s
  { s1 with mbr := { s1.mbr with
    mirror := bitAt w 0, mirNow := if (s.hdr .mbr).en then s1.mbr.mirNow else bitAt w 0 } }

/-- MBR (12 Table 12.9, 13 Table 13.5). -/
def writeMbr (s : State) (off : Nat) (w : Word) : State :=
  if off = 0x40 then mbrCfgWrite s w
  else if off = 0x80 then { s with mbr := { s.mbr with mirAct := bitAt w 0 } }
  else if off = 0x84 then
    { s with mbr := { s.mbr with defAct := s.mbr.defAct.set 0 (w.extractLsb' 18 11) } }
  else if off = 0x88 then
    { s with mbr := { s.mbr with defAct := s.mbr.defAct.set 1 (w.extractLsb' 18 11) } }
  else if 0x8C ≤ off ∧ off ≤ 0x98 then quotaWrite s (Fin.ofNat 4 ((off - 0x8C) / 4)) w
  else if off = 0xA0 then wmWrite s 0 w
  else if off = 0xA4 then wmWrite s 1 w
  else s

/-- MVFn_TXCMD (12 R306, R318, Table 12.11). -/
def txCommand (s : State) (i : Inst) (w : Word) : State :=
  let cmd := fld w 0 4
  let c : Chan := if bitAt w 4 then 1 else 0
  let ctag : Byte := w.extractLsb' 8 8
  if cmd = 1 then submit s i c (w.extractLsb' 5 2) ctag
  else if cmd = 2 then cancel s i c (w.extractLsb' 5 2)
  else if cmd = 3 then cancelAll s i
  else if cmd = 4 then flush s i
  else txRefuse s i false 5 ctag

/-- MVFn (12 Table 12.11, 13 Table 13.7). -/
def writeMvf (s : State) (i : Inst) (off : Nat) (w : Word) : State :=
  if off = 0x40 then s.modInst i fun m => { m with hdrLen := w.extractLsb' 24 7, hdrId := w.setWidth 24 }
  else if off = 0x44 then txCommand s i w
  else if 0x48 ≤ off ∧ off ≤ 0x84 then
    let k : Fin 16 := Fin.ofNat 16 ((off - 0x48) / 4)
    s.modInst i fun m => { m with txData := m.txData.set k.val w k.isLt }
  else if off = 0x90 then s.modInst i fun m =>
    { m with errlim := fld w 8 8, ordB := bitAt w 1, ordA := bitAt w 0 }
  else if off = 0xF0 then
    (if fld w 0 2 = 1 then winDrop s i else if fld w 0 2 = 2 then rxResend s i else s)
  else if off = 0xF4 then rxAck s i (w.setWidth 16)
  else if off = 0xF8 then
    let en := (s.hdr (.mvf i)).en
    s.modInst i fun m =>
      { m with waitLim := fld w 24 8, ageLim := fld w 16 8, bankSize := if en then m.bankSize else fld w 2 7,
               cmode := if en then m.cmode else bitAt w 1, qorg := if en then m.qorg else bitAt w 0 }
  else s

/-- A write of a block register. -/
def writeBlock (s : State) (b : Blk) (off : Nat) (w : Word) : State :=
  match b with
  | .sys => if off = 0x70 then { s with sys := { s.sys with scratch := w } } else s
  | .pin => writePin s off w
  | .clk => writeClk s off w
  | .rst => writeRst s off w
  | .opt => writeOpt s off w
  | .bkp => writeBkp s off w
  | .pwr => writePwr s off w
  | .flt => writeFlt s off w
  | .upl => if off = 0x50 then { s with upl := { s.upl with x1Only := bitAt w 0 } } else s
  | .hub => writeHub s off w
  | .ttb => writeTtb s off w
  | .prt n => writePrt s n off w
  | .xlt => writeXlt s off w
  | .jx c => writeJx s c off w
  | .mbr => writeMbr s off w
  | .mvf i => writeMvf s i off w
  | .dbg => s

/-- A write of a register of a page: during its Block reset only CTL takes it (R38). -/
def writePage (s : State) (b : Blk) (off : Nat) (w : Word) : State :=
  if (s.hdr b).inrst && off ≠ 0x04 then s
  else if off < 0x40 then writeHeader s b off w
  else writeBlock s b off w

/-- What a filter-memory word takes of a write: W1[17:16] of an entry are reserved (R13, 13 Table 13.1). -/
def flmBits (k : Nat) (w : Word) : Word := if k % 2 = 1 then w &&& 0xFFFCFFFF#32 else w

/-- A write of one word (R13, R34). -/
def writeWord (s : State) (a : Half) (w : Word) : State :=
  match placeOf a with
  | .page b off => writePage s b off w
  | .flm c k => memStore s (flmWordAddr c k) (flmBits k w)
  | .rtm k => rtmStore s k w
  | .reserved => s

/-- REGISTER_WRITE (R15). -/
def execRegisterWrite (addr : Half) (val : Word) (s : State) : Out := coreCmd (fun t => writeWord t addr val) s

end Sys2Proof.Machine
end

