-- ==== Sys2Proof/Machine/Control.lean ====
section
/-! DEFINITION. The endpoints 0 and 1 of the hub's functions: control transfers, the status endpoint and the host's ACK
(07 §7.6, §7.7, 08 §8.5). -/

namespace Sys2Proof.Machine

/-! ### Answers within a transaction (07 R177, Table 7.5) -/

/-- The hub has answered: the transaction ends, unless the answer is a DATA or DATAZ that the host answers. -/
def answered (s : State) (isData : Bool) : State :=
  match s.upl.txn.target with
  | .portI | .xlt _ =>
    if isData && s.upl.txn.wantsAck then { s with upl := { s.upl with txn := { s.upl.txn with phase := .handshake } } }
    else txnEnd s
  | .port _ => s
  | .none => s

/-- A handshake of a function, with the end of its transaction. -/
def say (s : State) (f : Func) (t : RespType) (ep : BitVec 4) (seq : Bool) : State := answered (shake s f t ep seq) false

/-- A DATA or DATAZ of a function. -/
def sayData (s : State) (f : Func) (ep : BitVec 4) (seq : Bool) (p : List Byte) : State :=
  answered (sendData s f ep seq p) true

/-- The request came too late: only where no transaction that began in time is in progress (07 R189). -/
def tooLate (s : State) : Bool := s.upl.txn.target == .none && pastCutoff s

/-- A packet addressed to a function, so far without an answer. -/
def heard (s : State) (f : Func) : State := silent (unAck s f)

/-- A packet of the host to a function that is present, in time, and not during a Timetable reset (05 Table 5.7). -/
def toFunc (f : Func) (g : State → State) (s : State) : State :=
  if !fPresent s f || (s.hdr .ttb).inrst then silent s
  else if tooLate s then cutOff (heard s f)
  else g (heard s f)

/-- DUP: a repeated packet was acknowledged and discarded (07 Table 7.11). -/
def dupCount (s : State) : State := evt { s with upl := { s.upl with dupCnt := inc16 s.upl.dupCnt } } .upl 2

/-! ### Requests: states and refusals (08 R198, Table 8.1, Table 8.13) -/

/-- The function is configured. -/
def configured (s : State) : Func → Bool
  | .hub => s.hub.conf
  | .bridge => s.hub.brConf

/-- The function has an address. -/
def addressed (s : State) : Func → Bool
  | .hub => decide (s.hub.addr ≠ 0)
  | .bridge => decide (s.hub.brAddr ≠ 0)

/-- The reasons of HUB_LASTBAD. -/
inductive Bad where
  | unknown | state | format | range | access | key | dbgdis | clash | target | off
  deriving DecidableEq

def badCode : Bad → BitVec 4
  | .unknown => 1 | .state => 2 | .format => 3 | .range => 4 | .access => 5 | .key => 6 | .dbgdis => 7 | .clash => 8
  | .target => 9 | .off => 10

/-- The transfer is in protocol stall (Table 7.9). -/
def stall (s : State) (f : Func) : State :=
  s.modEp f fun e => { e with stage := .halted, busy := false, pend := none, atEnd := none }

/-- A request is refused: protocol stall, STALLCNT, LASTBAD, BADREQ. -/
def refuse (s : State) (f : Func) (rtype request : Byte) (why : Bad) : State :=
  let s1 := stall s f
  evt { s1 with hub := { s1.hub with
    stallCnt := inc16 s1.hub.stallCnt, badReason := badCode why, badRequest := request, badRtype := rtype } } .hub 4

/-- An accepted request without a data stage has executed (R202). -/
def accept (s : State) (f : Func) : State := s.modEp f fun e => { e with busy := false }

/-- An accepted request has its IN data. -/
def giveData (s : State) (f : Func) (d : List Byte) : State :=
  s.modEp f fun e => { e with data := d, ready := true, busy := false }

/-! ### SETUP (07 Table 7.9, R184) -/

/-- Request codes a function knows (Table 8.6). -/
def known (f : Func) (c : Byte) : Bool :=
  let n := c.toNat
  decide (1 ≤ n) && decide (n ≤ 7) || n = 0x40 || n = 0x41 ||
    match f with
    | .hub => n = 8 || (decide (0x20 ≤ n) && decide (n ≤ 0x25)) || n = 0x4F
    | .bridge => n = 0x30

/-- The request is allowed in the state the function is in (Table 8.1). -/
def allowed (s : State) (f : Func) (c : Byte) : Bool :=
  let n := c.toNat
  if n = 1 ∨ n = 2 ∨ n = 4 ∨ n = 5 then true
  else if n = 3 then addressed s f
  else configured s f

/-- RTYPE is one that Table 8.6 gives for the request; DBG_RESET judges its own (R214). -/
def rtypeOk (f : Func) (c t : Byte) : Bool :=
  let n := c.toNat
  if n = 1 ∨ n = 4 then t = 0x80
  else if n = 2 ∨ n = 3 ∨ n = 8 then t = 0x00
  else if n = 5 then t = 0x80 || t = 0x82
  else if n = 6 ∨ n = 7 then t = 0x02
  else if n = 0x20 ∨ n = 0x25 then t = 0xA0
  else if n = 0x21 then t = 0xA3
  else if n = 0x22 ∨ n = 0x23 then t = 0x23
  else if n = 0x24 then t = 0x20
  else if n = 0x30 then t = 0x21
  else if n = 0x40 then (match f with
    | .hub => t = 0xC0
    | .bridge => t = 0xC1)
  else if n = 0x41 then (match f with
    | .hub => t = 0x40
    | .bridge => t = 0x41)
  else true

/-- A port feature that has no row of its own: the refused cells of Table 8.7, an unknown feature, or a data stage. The spec names no
reason for them: 0x3 is the model's (DESIGN CHOICE, log 32). -/
def featureBad (q : Setup) : Bool :=
  let v := q.value.toNat
  q.length ≠ 0 ||
    (if q.request = 0x22 then !(v = 1 || v = 2 || v = 3)
     else if q.request = 0x23 then !(v = 1 || v = 3 || v = 4) else false)

/-- What a SETUP is refused for by itself, before its request's own row judges it (log 32). -/
def setupBad (s : State) (f : Func) (q : Setup) : Option Bad :=
  if !known f q.request then some .unknown
  else if q.request = 0x4F || q.request = 0x41 then none
  else if !allowed s f q.request then some .state
  else if !rtypeOk f q.request q.rtype then some .format
  else if (q.request = 0x22 || q.request = 0x23) && featureBad q then some .format
  else none

/-- The stage that a SETUP opens (Table 7.6). -/
def firstStage (q : Setup) : Stage := if q.length = 0 then .status else if q.rtype.getLsbD 7 then .inData else .outData

/-- Words that the abandoned transfer held back are dropped: a SWR key, a DBG_RESET, a power request (05 R127, 14 R370). -/
def dropHeld (s : State) (f : Func) : State :=
  match f with
  | .hub => { s with rst := { s.rst with swrKey := false, dbgHeld := false }, pwr := { s.pwr with reqHeld := none } }
  | .bridge => s

/-- A SETUP that starts a transfer. -/
def startTransfer (s : State) (f : Func) (seq : Bool) (q : Setup) : State :=
  (dropHeld s f).setEp f { stage := firstStage q, lastSetup := some (seq, q), setup := q, busy := true }

/-- A repeat of the last SETUP (Table 7.9, second row). -/
def setupRepeat (e : Ep0) (seq : Bool) (q : Setup) : Bool :=
  e.lastSetup = some (seq, q) && !e.stageSeen && (e.stage = .outData || e.stage = .inData || e.stage = .status)

/-! ### REG_WRITE's window (08 R209, Table 8.10) -/

/-- The parameters of a REG_READ or REG_WRITE that R206 and R212 judge. -/
structure RegReq where
  func   : Func
  rtOk   : Bool
  value  : Half
  index  : Half
  length : Half

def RegReq.tag (r : RegReq) : Nat := r.value.toNat % 16
def RegReq.fixed (r : RegReq) : Bool := r.value.getLsbD 4
def RegReq.iface (r : RegReq) : Inst := Fin.ofNat 4 (r.value.toNat / 256 % 4)
def RegReq.words (r : RegReq) : Nat := r.length.toNat / 4

/-- Addresses of the words of a request, in order (R33). -/
def RegReq.addrs (r : RegReq) : List Half :=
  (List.range r.words).map fun k => if r.fixed then r.index else r.index + BitVec.ofNat 16 (4 * k)

/-- An address lies in page MVFn (R212). -/
def inMvf (i : Inst) (a : Half) : Bool := a.toNat / 256 = 0x24 + i.val

/-- R206 and R212: the reason, if the request is refused. -/
def regBad (r : RegReq) : Option Bad :=
  let len := r.length.toNat
  if !r.rtOk then some .format
  else if r.index.toNat % 4 ≠ 0 ∨ len % 4 ≠ 0 ∨ len < 4 ∨ 64 < len then some .format
  else if r.value.toNat / 32 % 8 ≠ 0 ∨ r.value.toNat / 1024 ≠ 0 then some .format
  else if r.func = .hub ∧ r.value.toNat / 256 % 4 ≠ 0 then some .format
  else if !r.fixed && decide (0x10000 < r.index.toNat + len) then some .range
  else match r.func with
    | .hub => none
    | .bridge => if r.addrs.all (inMvf r.iface) then none else some .access

/-- The named instance or the bridge answers from its wrapper: in Siding or in Block reset (12 R327, R329, Table 12.7). -/
def instWalled (s : State) (i : Inst) : Bool :=
  (s.hdr (.mvf i)).inrst || siding s (.mvf i) || (s.hdr .mbr).inrst

/-- The wrapper refuses a request of the bridge function. -/
def regWalled (s : State) (r : RegReq) : Bool :=
  match r.func with
  | .hub => false
  | .bridge => instWalled s r.iface

/-- The bridge function may not make the request: a wrong RTYPE, or a word outside the page of its instance (R212). -/
def forbidden (r : RegReq) : Bool := r.func = .bridge && (!r.rtOk || !r.addrs.all (inMvf r.iface))

/-- ACCVIOL: a forbidden request is refused, whatever the reason that is recorded (R212). -/
def accViol (s : State) (r : RegReq) : State := if forbidden r then evt s .hub 6 else s

/-- RTYPE that LASTBAD records for a register request. -/
def regRtype (r : RegReq) (write : Bool) : Byte :=
  match r.func with
  | .hub => if write then 0x40 else 0xC0
  | .bridge => if write then 0x41 else 0xC1

/-- A non-empty entry of the request's function and tag. -/
def tagOf (r : RegReq) (t : TagEntry) : Bool := t.result ≠ .empty && t.func = r.func && t.tag = r.tag

/-- The window entry of a tagged request: same function and tag. -/
def tagFind (s : State) (r : RegReq) : Option TagEntry := s.hub.tags.toList.find? (tagOf r)

/-- The other fields of a matched entry are equal. -/
def tagSame (t : TagEntry) (r : RegReq) : Bool := t.index = r.index && t.len = r.length.toNat && t.fixed = r.fixed

/-- A request enters the window; the entries shift down by one (R209). -/
def tagPush (s : State) (r : RegReq) (res : TagResult) : State :=
  let e : TagEntry := ⟨r.func, r.tag, r.index, r.length.toNat, r.fixed, res, 0⟩
  let t := s.hub.tags
  if r.tag = 0 then s
  else { s with hub := { s.hub with tags := #v[e, t[0], t[1], t[2], t[3], t[4], t[5], t[6]] } }

/-- RESULT and DONE of the request's entry, where the window still holds it: requests of the other function may have
shifted it. -/
def tagMark (s : State) (r : RegReq) (res : TagResult) (done : Nat) : State :=
  if r.tag = 0 then s
  else
    let k := s.hub.tags.toList.findIdx (tagOf r)
    { s with hub := { s.hub with
        tags := Vector.ofFn fun i => if i.val = k then { s.hub.tags[i] with result := res, done := done } else s.hub.tags[i] } }

/-- TAGREPLAY: the stored status is replayed once the data OUT has been accepted and discarded (Table 8.10). -/
def tagReplay (s : State) (f : Func) (t : TagEntry) : State :=
  let s1 := evt { s with hub := { s.hub with replayCnt := inc16 s.hub.replayCnt } } .hub 2
  if t.result = .complete then accept s1 f else s1.modEp f fun e => { e with busy := false, replayBad := true }

/-- What a REG_WRITE meets before its words execute: the answer, or none where it executes (R206, R209). A request that the
wrapper refuses is refused before the window is consulted and is not recorded (DESIGN CHOICE, log 32). -/
def regWriteGate (s : State) (r : RegReq) (rtype : Byte) : Option State :=
  let f := r.func
  if !configured s f then some (refuse s f rtype 0x41 .state)
  else if regWalled s r then some (accViol (refuse s f rtype 0x41 .off) r)
  else match (if r.tag = 0 then none else tagFind s r) with
    | some t =>
      if tagSame t r then some (tagReplay s f t) else some (evt (refuse s f rtype 0x41 .clash) .hub 3)
    | none =>
      match regBad r with
      | some why => some (accViol (refuse (tagPush s r .refused) f rtype 0x41 why) r)
      | none => none

/-- EP0_SETUP: an ACK, and a new transfer unless it repeats the last SETUP. -/
def ep0Setup (s : State) (f : Func) (seq : Bool) (q : Setup) : State :=
  if setupRepeat (s.ep f) seq q then say (dupCount s) f .ack 0 seq
  else
    let s1 := say (startTransfer s f seq q) f .ack 0 seq
    match setupBad s1 f q with
    | some why =>
      let s2 := refuse s1 f q.rtype q.request why
      if q.request = 0x40 then accViol s2 ⟨f, rtypeOk f q.request q.rtype, q.value, q.index, q.length⟩ else s2
    | none =>
      if q.request = 0x41 && !rtypeOk f q.request q.rtype then
        (regWriteGate s1 ⟨f, false, q.value, q.index, q.length⟩ q.rtype).getD s1
      else s1

/-- EP0_SETUP. -/
def execEp0Setup (f : Func) (seq : Bool) (q : Setup) (s : State) : Out :=
  hostRow (toFunc f fun t => ep0Setup t f seq q) s

/-! ### The data stages (07 R180, Table 7.9) -/

/-- Update EP0: a stage packet has been accepted. -/
def stageTaken (s : State) (f : Func) (g : Ep0 → Ep0) : State := s.modEp f fun e => { g e with stageSeen := true }

/-- EP0_OUT (Table 7.9). A data packet longer than a control payload gets no answer (R168). The first packet after a Core
reset that kept the link is new whatever its SEQ (05 R108). -/
def ep0Out (s : State) (f : Func) (seq : Bool) (p : List Byte) : State :=
  let e := s.ep f
  if 64 < p.length then s
  else match e.stage with
  | .none =>
    if e.fresh then say (s.modEp f fun e => { e with seq := seq, fresh := false }) f .stall 0 seq
    else if seq = e.seq then say s f .stall 0 seq else say (dupCount s) f .ack 0 seq
  | .outData =>
    if seq ≠ e.seq then say (dupCount s) f .ack 0 seq
    else if e.setup.length.toNat < e.got.length + p.length then say (stall s f) f .stall 0 seq
    else say (stageTaken s f fun e => { e with got := e.got ++ p, seq := !e.seq }) f .ack 0 seq
  | .inData | .status | .halted => say s f .stall 0 seq

/-- EP0_OUT. -/
def execEp0Out (f : Func) (seq : Bool) (payload : List Byte) (s : State) : Out :=
  hostRow (toFunc f fun t => ep0Out t f seq payload) s

/-- The transfer is complete. -/
def transferEnd (e : Ep0) : Ep0 := { e with stage := .none, pend := none, data := [], ready := false }

/-- EP0_OUTZ (Table 7.9). An OUTZ with SEQ 0 outside a transfer is a repeat where SEQ 0 is the old one. -/
def ep0Outz (s : State) (f : Func) (seq : Bool) : State :=
  let e := s.ep f
  match e.stage with
  | .none =>
    if e.fresh then say (s.modEp f fun e => { e with seq := seq, fresh := false }) f .stall 0 seq
    else if seq || seq ≠ e.seq then say (dupCount s) f .ack 0 seq else say s f .stall 0 seq
  | .outData => say (stall s f) f .stall 0 seq
  | .inData | .status =>
    if !seq then say s f .stall 0 seq
    else if e.busy then say s f .nrdy 0 seq
    else say (stageTaken s f fun e => { transferEnd e with seq := false }) f .ack 0 seq
  | .halted => say s f .stall 0 seq

/-- EP0_OUTZ. -/
def execEp0Outz (f : Func) (seq : Bool) (s : State) : Out := hostRow (toFunc f fun t => ep0Outz t f seq) s

/-! ### The status IN (08 R197, R202, R213; 14 R370) -/

/-- The old addresses still answered once a function with address `cur` takes address `a` (R197). -/
def oldAddrs (old : List (BitVec 7)) (cur a : BitVec 7) : List (BitVec 7) := if cur = a then old else cur :: old

/-- A new address routes to port I (R195); the old one is answered until the new one is heard (R197). -/
def takeAddr (s : State) (f : Func) (a : BitVec 7) : State :=
  let s1 := { s with hub := { s.hub with routes := s.hub.routes.set a.toNat 8#4 a.isLt } }
  match f with
  | .hub =>
    evt { s1 with hub := { s1.hub with addrOld := oldAddrs s1.hub.addrOld s1.hub.addr a, addr := a } } .hub 0
  | .bridge =>
    evt { s1 with hub := { s1.hub with
      brAddrOld := oldAddrs s1.hub.brAddrOld s1.hub.brAddr a, brAddr := a } } .hub 1

/-- What the lk after the DATAZ does. -/
def runAtEnd (s : State) (f : Func) : Option AtEnd → State
  | none => s
  | some (.addr a) => takeAddr s f a
  | some (.instReset i) => if (s.hdr (.mvf i)).inrst then s else brstStart s (.mvf i) false true

/-- A power request of a completed REG_WRITE starts its round. -/
def runHeld (s : State) (f : Func) : State :=
  match f, s.pwr.reqHeld with
  | .hub, some l => startRound { s with pwr := { s.pwr with reqHeld := none } } l
  | .hub, none => s
  | .bridge, _ => s

/-- The DATAZ of the status stage: the transfer is complete and the DATAZ is pending. -/
def statusDone (s : State) (f : Func) : State :=
  let e := s.ep f
  let s1 := sayData s f 0 true []
  let s2 := stageTaken s1 f fun e => { transferEnd e with pend := some (true, []), ackable := true, atEnd := none }
  runHeld (runAtEnd s2 f e.atEnd) f

/-! ### The IN data stage (07 Table 7.8, R182) -/

/-- The pending DATA or DATAZ of EP0 has been delivered: SEQ toggles, the next data follow. A DATA shorter than 64 bytes, or
a DATAZ, ends the IN data stage (R180). -/
def ep0Deliver (e : Ep0) : Ep0 :=
  match e.pend with
  | none => e
  | some (_, p) =>
    if e.stage = .inData then
      { e with pend := none, data := e.data.drop p.length, seq := !e.seq,
               stage := if p.length < 64 then .status else .inData }
    else { e with pend := none, data := e.data.drop p.length }

/-- Send or resend the data of an IN data stage (R168, R189). -/
def ep0Send (s : State) (f : Func) (seq : Bool) (len : BitVec 10) : State :=
  let e := s.ep f
  let p := match e.pend with
    | some (_, p) => p
    | none => e.data.take (min 64 (len.toNat + 1))
  if len.toNat + 1 < p.length || (!p.isEmpty && !dataFits s p.length) then say s f .nrdy 0 seq
  else sayData (s.modEp f fun e => { e with pend := some (e.seq, p), ackable := true, stageSeen := true }) f 0 e.seq p

/-- A port feature: it executes in the lk after the first IN of its status stage (08 R203). -/
def isFeature (q : Setup) : Bool := q.request = 0x22 || q.request = 0x23

/-- The status IN: a port feature's first IN waits for it to execute and gets no NRDY (08 R203); every other request is
answered NRDY while it executes (R180), and a replayed refusal STALL (08 Table 8.10). -/
def statusIn (s : State) (f : Func) (seq : Bool) : State :=
  let e := s.ep f
  if e.replayBad then say (stall s f) f .stall 0 seq
  else if e.busy then
    (if isFeature e.setup then s.modEp f fun e => { e with inWaits := true } else say s f .nrdy 0 seq)
  else statusDone s f

/-- EP0_IN (Table 7.9). -/
def ep0In (s : State) (f : Func) (seq : Bool) (len : BitVec 10) : State :=
  let e := s.ep f
  match e.stage with
  | .none => match e.pend with
    | some (q, p) => sayData (s.modEp f fun e => { e with ackable := true }) f 0 q p
    | none => say s f .stall 0 seq
  | .outData => if e.got.length ≠ e.setup.length.toNat then say s f .stall 0 seq else statusIn s f seq
  | .inData =>
    if !e.ready then say s f .nrdy 0 seq
    else
      let s1 := match e.pend with
        | some (q, _) => if seq = q then s else s.modEp f ep0Deliver
        | none => s
      if (s1.ep f).stage = .status then statusIn s1 f seq else ep0Send s1 f seq len
  | .status => statusIn s f seq
  | .halted => say s f .stall 0 seq

/-- EP0_IN. -/
def execEp0In (f : Func) (seq : Bool) (len : BitVec 10) (s : State) : Out :=
  hostRow (toFunc f fun t => ep0In t f seq len) s

/-! ### EP1 of the hub function (08 R205, 14 R372, R374) -/

/-- The bitmap as DATA, which counts as delivered at once. The first DATA after a Core reset that kept the link takes the
token's SEQ (05 R108). -/
def ep1Data (s : State) (seq : Bool) : State :=
  let q := if s.hub.ep1Fresh then seq else s.hub.ep1Seq
  let s1 := sayData s .hub 1 q (bitmap s)
  { s1 with hub := { s1.hub with ep1Seq := !q, ep1Fresh := false } }

/-- PREADY in place of the answer of R205. -/
def ep1Pready (s : State) : State := sendPready (answered (reply s .pready s.hub.addr 1 false 0 []) false)

/-- A poll of EP1: absent while the function is not configured (07 R181). A token that accepts fewer than eight bytes gets
NRDY (07 R168; DEDUCED, log 33). A STALL ends the run of idle lk (14 R379). -/
def ep1Poll (s : State) (seq : Bool) (len : BitVec 10) : State :=
  if !s.hub.conf then s
  else if s.pwr.round = .agreed || s.pwr.round = .preadySent then ep1Pready s
  else if s.hub.ep1Halted then say { s with pwr := { s.pwr with idleCnt := 0 } } .hub .stall 1 seq
  else if (s.hub.ep1All || (bitmap s).any (fun b => b ≠ 0)) && decide (8 ≤ len.toNat + 1) && dataFits s 8 then ep1Data s seq
  else say s .hub .nrdy 1 seq

/-- EP1_POLL: it ends no round; a poll between PREADY and the stop of an entry to Retain or Heron is the packet that aborts the
entry (R373, R374). -/
def execEp1Poll (seq : Bool) (len : BitVec 10) (s : State) : Out :=
  if entering s then (if s.pwr.clockOn then done (silent (endRound s 7 0x08)) else .next s)
  else if inService s then done (toFunc .hub (fun t => ep1Poll t seq len) (probeEnd s))
  else .next s

/-! ### The host's ACK (07 R182, R177) -/

/-- Index of a bridge endpoint EP1 to EP12. -/
def bepIx (ep : BitVec 4) : Option (Fin 12) := if h : 1 ≤ ep.toNat ∧ ep.toNat ≤ 12 then some ⟨ep.toNat - 1, by omega⟩ else none

/-- The entries that the endpoint's pending DATA carries are in this state. -/
def bepState (k : Fin 12) : RxState := if k.val % 3 = 1 then .bulk else .urgent

/-- The instance of a bridge endpoint. -/
def bepInst (k : Fin 12) : Inst := ⟨k.val / 3, by omega⟩

/-- The pending DATA of a bridge endpoint counts as delivered (13 R356). -/
def bepDeliver (s : State) (k : Fin 12) : State :=
  match (s.bep k).pend with
  | none => s
  | some _ =>
    let s1 := s.modBep k fun e => { e with pend := none, seq := !e.seq, ackable := false }
    poolChanged (s1.modInst (bepInst k) fun m => rxDeliver m (bepState k))

/-- An ACK for an endpoint of a function: only the DATA whose next packet it is (R182). -/
def funcAck (s : State) (f : Func) (ep : BitVec 4) : State :=
  if ep = 0 then (if (s.ep f).ackable then s.modEp f ep0Deliver else s)
  else match f with
    | .hub => s
    | .bridge => match bepIx ep with
      | some k => if (s.bep k).ackable then bepDeliver s k else s
      | none => s

/-- The handshake ends the transaction that waited for it. -/
def ackEnd (s : State) : State := if s.upl.txn.phase = .handshake then txnEnd s else s

/-- The host's ACK as a packet (07 Table 7.1). -/
def ackPkt (addr : BitVec 7) (ep : BitVec 4) (seq x2 : Bool) : RawPkt := mkPkt 9 addr ep seq 0 [] x2

/-- ACK: to a function of port I, to the translator, or repeated on the routed Full port only (R174, R177). At x2 a Full port
does not get it: it is discarded and counted (06 R145). -/
def hostAck (s0 : State) (p : RawPkt) : State :=
  let addr := hAddr p.header
  let ep := hEp p.header
  if x2ToFull s0 p then repeatDown (x2Disc (silent s0)) p none
  else
    let s := repeatDown s0 p (routedPort s0 p)
    match routeOf s addr with
    | .portI => match funcAt s addr with
      | some f => ackEnd (funcHeard (heard (funcAck s f ep) f) f addr)
      | none => silent s
    | .port n =>
      if translated s n then ackEnd ((xltAck (silent s) n ep).modXport n fun p => { p with ackable := none })
      else ackEnd (silent s)
    | .xlt _ => silent s
    | .none => silent s

/-- The ACK is one for the hub function. -/
def ackToHub (s : State) (addr : BitVec 7) : Bool := routeOf s addr == .portI && funcAt s addr == some .hub

/-- An ACK for the hub function completes a transaction that the hub has answered, as the status stage of the write that
started the round. Before PREADY it ends no round (14 R370, R371, Table 14.4; log 37). The ACK of a poll answered with the bitmap
leaves the idle count as well: pending events alone do not keep the hub from proposing Park (14 R379). -/
def ackSpares (s : State) (addr : BitVec 7) (ep : BitVec 4) : Bool :=
  ackToHub s addr && (s.pwr.round = .voting || s.pwr.round = .agreed || (s.pwr.round = .none && ep = 1))

/-- ACK. -/
def execAck (addr : BitVec 7) (ep : BitVec 4) (seq x2 : Bool) (s : State) : Out :=
  if inService s && !entering s && ackSpares s addr ep then
    let n := if ep = 1 then s.pwr.idleCnt else 0
    done (hostAck (probeEnd { s with pwr := { s.pwr with idleCnt := n } }) (ackPkt addr ep seq x2))
  else hostRow (fun t => hostAck t (ackPkt addr ep seq x2)) s

end Sys2Proof.Machine
end

