-- ==== Sys2Proof/Machine/Requests.lean ====
section
/-! DEFINITION. The control requests of the hub function and of the bridge function (08 §8.2–8.9). Each judges the request
that its SETUP carried and executes it; a refusal is the protocol stall of 07 Table 7.9. -/

namespace Sys2Proof.Machine

/-! ### The frame of a request -/

/-- A request, judged in the function's state (Table 8.1) and then for its own fields: refused, or executed. -/
def request (s : State) (f : Func) (rtype code : Byte) (bad : Option Bad) (run : State → State) : State :=
  if !known f code then refuse s f rtype code .unknown
  else if !allowed s f code then refuse s f rtype code .state
  else match bad with
    | some why => refuse s f rtype code why
    | none => run s

/-- The fields that Table 8.6 requires to be 0 or one value. -/
def fmt (ok : Bool) : Option Bad := if ok then none else some .format

/-- The first of two reasons. -/
def orElse (a b : Option Bad) : Option Bad :=
  match a with
  | some x => some x
  | none => b

/-- IN data of at most LENGTH bytes. -/
def giveUpTo (s : State) (f : Func) (length : Half) (d : List Byte) : State := giveData s f (d.take length.toNat)

/-! ### Descriptors (08 §8.3) -/

/-- The device descriptor (Table 8.3). -/
def deviceDesc (s : State) (f : Func) : List Byte :=
  let x2 := if s.upl.x1Now then 0 else 2
  [16, 1, 0x10, match f with
    | .hub => 0x01
    | .bridge => 0x80, 64, 1, 0x44, 0x4F, match f with
    | .hub => 0x20
    | .bridge => 0x21, 0x08, optByte s 2, optByte s 3, optByte s 4, optByte s 5, 0x11, match f with
    | .hub => 1 + x2
    | .bridge => x2]

/-- The record of a configuration, of an interface and of an endpoint (Table 8.4). -/
def configRec (total nif attr : Nat) : List Byte :=
  [8, 2, BitVec.ofNat 8 total, BitVec.ofNat 8 (total / 256), BitVec.ofNat 8 nif, 1, BitVec.ofNat 8 attr, 0]
def ifaceRec (n nep cls sub : Nat) : List Byte :=
  [8, 3, BitVec.ofNat 8 n, BitVec.ofNat 8 nep, BitVec.ofNat 8 cls, BitVec.ofNat 8 sub, 0, 0]
def epRec (addr xfer maxp interval : Nat) : List Byte :=
  [8, 4, BitVec.ofNat 8 addr, BitVec.ofNat 8 xfer, BitVec.ofNat 8 maxp, BitVec.ofNat 8 (maxp / 256), BitVec.ofNat 8 interval, 0]

/-- Interface n of the bridge function with its three endpoints (R201). -/
def bridgeIface (n : Nat) : List Byte :=
  ifaceRec n 3 0x80 1 ++ epRec (3 * n + 1) 2 512 0 ++ epRec (0x80 + 3 * n + 2) 2 480 0 ++ epRec (0x80 + 3 * n + 3) 1 160 1

/-- The configuration set (R201). -/
def configSet : Func → List Byte
  | .hub => configRec 24 1 1 ++ ifaceRec 0 1 1 0 ++ epRec 0x81 1 8 1
  | .bridge => configRec 136 4 0 ++ bridgeIface 0 ++ bridgeIface 1 ++ bridgeIface 2 ++ bridgeIface 3

/-- The descriptor that VALUE names (R200). -/
def descOf (s : State) (f : Func) (value : Half) : Option (List Byte) :=
  if value = 0x0100 then some (deviceDesc s f) else if value = 0x0200 then some (configSet f) else none

/-- GET_DESC (R200). -/
def execGetDesc (f : Func) (value index length : Half) (s : State) : Out :=
  coreCmd (fun t => request t f 0x80 0x01 (fmt ((descOf t f value).isSome && index = 0))
    fun u => giveUpTo u f length ((descOf u f value).getD [])) s

/-- The byte of port n in the hub descriptor (Table 8.5), from the settings in force. -/
def hubDescPort (s : State) (n : Port) : Byte :=
  let p := s.port n
  BitVec.ofNat 8 (b2n (s.hdr (.prt n)).en + 2 * b2n (p.speedNow = 1) + 4 * p.settleNow.toNat)

/-- The hub descriptor (Table 8.5). -/
def hubDesc (s : State) : List Byte :=
  [16, 5, 8, 8, BitVec.ofNat 8 s.clk.tierNow, 5, 8, BitVec.ofNat 8 (b2n s.upl.x2)] ++ allPorts.map (hubDescPort s)

/-- GET_HUB_DESC (R200). -/
def execGetHubDesc (f : Func) (value index length : Half) (s : State) : Out :=
  coreCmd (fun t => request t f 0xA0 0x20 (fmt (value = 0 && index = 0)) fun u => giveUpTo u f length (hubDesc u)) s

/-! ### Addresses and configurations (R197, R198) -/

/-- The address is in use by the other function. -/
def addrUsed (s : State) (f : Func) (a : BitVec 7) : Bool :=
  match f with
  | .hub => s.hub.brPres && (s.hub.brAddr = a || s.hub.brAddrOld.contains a)
  | .bridge => s.hub.addr = a || s.hub.addrOld.contains a

/-- SET_ADDR: the address is taken in the lk after the DATAZ of the status stage (R197). -/
def execSetAddr (f : Func) (value index length : Half) (s : State) : Out :=
  coreCmd (fun t =>
    let a : BitVec 7 := value.setWidth 7
    let bad := orElse (fmt (index = 0 && length = 0))
      (if value = 0 || 126 < value.toNat || addrUsed t f a then some .target else none)
    request t f 0x00 0x02 bad fun u => u.modEp f fun e => { e with busy := false, atEnd := some (.addr a) }) s

/-- SEQ of every endpoint other than EP0 becomes 0. -/
def clearSeqs (s : State) : Func → State
  | .hub => { s with hub := { s.hub with ep1Seq := false } }
  | .bridge => (List.finRange 12).foldl epSeq0 s

/-- The configured state of a function. -/
def setConf (s : State) (f : Func) (v : Bool) : State :=
  match f with
  | .hub => { s with hub := { s.hub with conf := v } }
  | .bridge => { s with hub := { s.hub with brConf := v } }

/-- SET_CONFIG. -/
def execSetConfig (f : Func) (value index length : Half) (s : State) : Out :=
  coreCmd (fun t => request t f 0x00 0x03 (fmt ((value = 0 || value = 1) && index = 0 && length = 0)) fun u =>
    let u1 := setConf u f (value = 1)
    accept (if value = 0 then clearSeqs u1 f else u1) f) s

/-- GET_CONFIG. -/
def execGetConfig (f : Func) (value index length : Half) (s : State) : Out :=
  coreCmd (fun t => request t f 0x80 0x04 (fmt (value = 0 && index = 0 && length = 1)) fun u =>
    giveData u f [BitVec.ofNat 8 (b2n (configured u f))]) s

/-! ### Endpoints (R181, R198) -/

/-- What INDEX names as an endpoint: EP0, EP1 of the hub function, or an endpoint of the bridge function. -/
inductive EpName where
  | ep0 | hub1 | br (k : Fin 12)
  deriving DecidableEq

/-- The endpoint, with number in [3:0] and direction in [7]; none where the function has no such endpoint now: one other
than EP0 exists while the function is configured (07 R181). -/
def epNamed (s : State) (f : Func) (index : Half) : Option EpName :=
  let num := index.toNat % 16
  if index &&& 0xFF70#16 ≠ 0 then none
  else if num = 0 then some .ep0
  else if !configured s f then none
  else match f with
    | .hub => if index = 0x0081 then some .hub1 else none
    | .bridge =>
      if h : 1 ≤ num ∧ num ≤ 12 then
        (if decide (num % 3 = 1) == !index.getLsbD 7 then some (.br ⟨num - 1, by omega⟩) else none)
      else none

/-- The endpoint is halted. -/
def epHalted (s : State) : EpName → Bool
  | .ep0 => false
  | .hub1 => s.hub.ep1Halted
  | .br k => (s.bep k).halted

/-- The endpoint's instance is in Block reset, so the request waits with NRDY until lk 255 (12 Table 12.7). -/
def epWaits (s : State) (f : Func) (index : Half) : Bool :=
  match epNamed s f index with
  | some (.br k) => (s.hdr (.mvf (bepInst k))).inrst || (s.hdr .mbr).inrst
  | some .ep0 => false
  | some .hub1 => false
  | none => false

/-- The endpoint belongs to an interface whose instance is in Siding: every request that names it is refused (12 R329). -/
def epFenced (s : State) (f : Func) (index : Half) : Bool :=
  match epNamed s f index with
  | some (.br k) => siding s (.mvf (bepInst k))
  | some .ep0 => false
  | some .hub1 => false
  | none => false

/-- What a request that names an endpoint is refused for: its fields, no such endpoint, or an instance in Siding. -/
def epBad (s : State) (f : Func) (index : Half) (ok named : Bool) : Option Bad :=
  orElse (fmt ok) (if !named then some .target else if epFenced s f index then some .off else none)

/-- GET_STATUS of the device or of an endpoint. -/
def execGetStatus (f : Func) (endpoint : Bool) (value index length : Half) (s : State) : Out :=
  coreCmd (fun t =>
    let wake := match f with
      | .hub => b2n t.hub.remoteWake
      | .bridge => 0
    if endpoint then
      request t f 0x82 0x05 (epBad t f index (value = 0 && length = 2) (epNamed t f index).isSome) fun u =>
        giveData u f [BitVec.ofNat 8 (b2n ((epNamed u f index).elim false (epHalted u))), 0]
    else request t f 0x80 0x05 (fmt (value = 0 && index = 0 && length = 2)) fun u =>
      giveData u f [BitVec.ofNat 8 (2 * wake), 0]) s

/-- Clear-halt: SEQ of the endpoint becomes 0. -/
def clearHalt (s : State) : EpName → State
  | .ep0 => s
  | .hub1 => { s with hub := { s.hub with ep1Halted := false, ep1Seq := false } }
  | .br k => (epSeq0 s k).modBep k fun e => { e with halted := false }

/-- CLR_HALT (R181). -/
def execClrHalt (f : Func) (value index length : Half) (s : State) : Out :=
  coreCmd (fun t =>
    request t f 0x02 0x06 (epBad t f index (value = 0 && length = 0) (epNamed t f index).isSome) fun u =>
      if epWaits u f index then u
      else match epNamed u f index with
        | some e => accept (clearHalt u e) f
        | none => u) s

/-- Halt an endpoint. -/
def setHalt (s : State) : EpName → State
  | .ep0 => s
  | .hub1 => { s with hub := { s.hub with ep1Halted := true } }
  | .br k => s.modBep k fun e => { e with halted := true }

/-- SET_HALT; on EP0 it is refused. -/
def execSetHalt (f : Func) (value index length : Half) (s : State) : Out :=
  coreCmd (fun t =>
    let named := match epNamed t f index with
      | some .hub1 => true
      | some (.br _) => true
      | some .ep0 => false
      | none => false
    request t f 0x02 0x07 (epBad t f index (value = 0 && length = 0) named) fun u =>
      if epWaits u f index then u
      else match epNamed u f index with
        | some e => accept (setHalt u e) f
        | none => u) s

/-- SET_WAKE. -/
def execSetWake (f : Func) (value index length : Half) (s : State) : Out :=
  coreCmd (fun t => request t f 0x00 0x08 (fmt ((value = 0 || value = 1) && index = 0 && length = 0)) fun u =>
    accept { u with hub := { u.hub with remoteWake := value = 1 } } f) s

/-! ### Ports (R199, R203, R219) -/

/-- The status of a port (Table 8.8). -/
def portStatus (s : State) (n : Port) : List Byte :=
  let p := s.port n
  [BitVec.ofNat 8 (pstateCode p.state),
    BitVec.ofNat 8 (b2n p.powerNow + 2 * b2n p.full + 4 * b2n (pfltLow s n) + 8 * b2n (p.state == .sid)
      + 16 * b2n p.power), 0, 0] ++ wordBytes (s.hdr (.prt n)).evtPnd

/-- The status of port I (Table 8.8). -/
def portIStatus (s : State) : List Byte :=
  [if s.hub.brPres then 4 else 2, if s.hub.brPres then 3 else 0, 0, 0, 0, 0, 0, 0]

/-- GET_PORT_STATUS. -/
def execGetPortStatus (f : Func) (value index length : Half) (s : State) : Out :=
  coreCmd (fun t =>
    let bad := orElse (fmt (value = 0 && length = 8)) (if 8 < index.toNat then some .target else none)
    request t f 0xA3 0x21 bad fun u =>
      if index.toNat = 8 then giveData u f (portIStatus u)
      else giveData (nextFree u) f (portStatus u (Fin.ofNat 8 index.toNat))) s

/-- A port feature of a port 0 to 7 is refused: the port is disabled, in Siding or in Block reset (R203, log 32). -/
def portAway (s : State) (n : Port) : Bool := !(s.hdr (.prt n)).en || siding s (.prt n) || (s.hdr (.prt n)).inrst

/-- A port feature on ports 0 to 7: it writes PRTn_CFG.POWER, or is a port command (R219). -/
inductive Feature where
  | power (v : Bool) | command (cmd : BitVec 4) (quiet : Bool)

/-- A feature that is a port command: taken, or refused with reason 0x2 (R219). -/
def featureCmd (code : Byte) (cmd : BitVec 4) (quiet : Bool) (s : State) (n : Port) : State :=
  if cmdRefused s n cmd then refuse (cmdRefuse s n cmd) .hub 0x23 code .state
  else accept (portCmd s n cmd quiet) .hub

/-- A feature that writes PRTn_CFG.POWER (R219). -/
def featurePower (v : Bool) (s : State) (n : Port) : State := accept (s.modPort n fun p => { p with power := v }) .hub

/-- A feature on a port that is there for it. -/
def featureRun (s : State) (code : Byte) (n : Port) : Feature → State
  | .power v => featurePower v s n
  | .command c q => featureCmd code c q s n

/-- A feature on a port that is disabled, in Siding or in Block reset: the port refuses a command as it refuses a write of PRTn_CMD
(R219), which its Block reset discards (02 R38). -/
def featureAway (s : State) (n : Port) : Feature → State
  | .power _ => s
  | .command c _ => if (s.hdr (.prt n)).inrst then s else cmdRefuse s n c

/-- A port feature (R203); `onI`: what it does on port I, where Table 8.7 allows one. The reason 0x9 of a refused feature of port I
is the model's (DESIGN CHOICE, log 32). -/
def portFeature (s : State) (code : Byte) (index : Half) (w : Feature) (onI : Option (State → State)) : State :=
  if 8 < index.toNat then refuse s .hub 0x23 code .target
  else if index.toNat = 8 then (match onI with
    | some g => accept (g s) .hub
    | none => refuse s .hub 0x23 code .target)
  else if portAway s (Fin.ofNat 8 index.toNat) then refuse (featureAway s (Fin.ofNat 8 index.toNat) w) .hub 0x23 code .off
  else featureRun s code (Fin.ofNat 8 index.toNat) w

/-- The status IN that waited for the feature is answered: DATAZ, or STALL for a refusal (R203). -/
def answerIn (s : State) : State :=
  if (s.ep .hub).inWaits then
    let s1 := s.modEp .hub fun e => { e with inWaits := false }
    if (s1.ep .hub).stage = .halted then say s1 .hub .stall 0 false else statusDone s1 .hub
  else s

/-- The request of a port feature, judged in the hub function's state, and the answer to the IN that it follows. -/
def portRequest (s : State) (code : Byte) (index : Half) (w : Feature) (onI : Option (State → State)) : State :=
  answerIn (request s .hub 0x23 code none fun u => portFeature u code index w onI)

/-- SET_PORT_FEAT POWER. -/
def execSetPortFeatPower (index : Half) (s : State) : Out :=
  coreCmd (fun t => portRequest t 0x22 index (.power true) none) s

/-- CLR_PORT_FEAT POWER. -/
def execClrPortFeatPower (index : Half) (s : State) : Out :=
  coreCmd (fun t => portRequest t 0x23 index (.power false) none) s

/-- The reset of port I (R199): the bridge function loses its address, route, configuration and SEQ state. -/
def bridgeReset (s : State) : State :=
  let a := s.hub.brAddr
  let r := if s.hub.brPres && a ≠ 0 then s.hub.routes.set a.toNat 0xF#4 a.isLt else s.hub.routes
  let s1 := (List.finRange 12).foldl epSeq0 (s.setEp .bridge { fresh := (s.ep .bridge).fresh })
  { s1 with hub := { s1.hub with
    brPres := false, brConf := false, brAddr := 0, brAddrOld := [], routes := r, brResetWait := true } }

/-- SET_PORT_FEAT RESET. -/
def execSetPortFeatReset (index : Half) (s : State) : Out :=
  coreCmd (fun t => portRequest t 0x22 index (.command 1 false) (some bridgeReset)) s

/-- SET_PORT_FEAT SUSPEND. -/
def execSetPortFeatSuspend (index : Half) (s : State) : Out :=
  coreCmd (fun t => portRequest t 0x22 index (.command 2 false) none) s

/-- CLR_PORT_FEAT SUSPEND. -/
def execClrPortFeatSuspend (index : Half) (quiet : Bool) (s : State) : Out :=
  coreCmd (fun t => portRequest t 0x23 index (.command 3 quiet) none) s

/-- CLR_PORT_FEAT ENABLE. -/
def execClrPortFeatEnable (index : Half) (s : State) : Out :=
  coreCmd (fun t => portRequest t 0x23 index (.command 4 false) none) s

/-- BRIDGE_DEFAULT_STATE: 64 lk after the DATAZ of a port I reset (R199, R195). -/
def execBridgeDefaultState (s : State) : Out :=
  if s.hub.brResetWait then
    coreCmd (fun t =>
      if (t.hdr .mbr).en then
        { t with hub := { t.hub with brResetWait := false, brPres := true, routes := t.hub.routes.set 0 8#4 } }
      else { t with hub := { t.hub with brResetWait := false } }) s
  else .next s

/-! ### Routes (R204) -/

/-- SET_ROUTE. -/
def execSetRoute (f : Func) (value index length : Half) (s : State) : Out :=
  coreCmd (fun t =>
    let bad := orElse (fmt (length = 0))
      (if value = 0 || 126 < value.toNat || !(decide (index.toNat < 8) || index = 0xF) || routeProtected t value.toNat
        then some .target else none)
    request t f 0x20 0x24 bad fun u => accept (setRoute u value.toNat (index.setWidth 4)) f) s

/-- GET_ROUTE. -/
def execGetRoute (f : Func) (value index length : Half) (s : State) : Out :=
  coreCmd (fun t =>
    let bad := orElse (fmt (index = 0 && length = 1)) (if 126 < value.toNat then some .target else none)
    request t f 0xA0 0x25 bad fun u =>
      giveData u f [(u.hub.routes.toList.getD value.toNat 0xF#4).setWidth 8]) s

/-! ### INST_RESET and DBG_RESET (R213, R214) -/

/-- INST_RESET: it starts in the lk after the DATAZ of its status stage. -/
def execInstReset (f : Func) (value index length : Half) (s : State) : Out :=
  coreCmd (fun t =>
    let i : Inst := Fin.ofNat 4 index.toNat
    let bad := orElse (fmt (value = 0 && length = 0))
      (if 3 < index.toNat then some .target else if instWalled t i then some .off else none)
    request t f 0x21 0x30 bad fun u => u.modEp f fun e => { e with busy := false, atEnd := some (.instReset i) }) s

/-- What a DBG_RESET is refused for (R214). -/
def dbgBad (s : State) (rtype : Byte) (value index length : Half) : Option Bad :=
  if !configured s .hub then some .state
  else if rtype ≠ 0x40 || index ≠ 0 || length ≠ 0 then some .format
  else if value ≠ 0xD00D then some .key
  else if (optByte s 6).getLsbD 1 then some .dbgdis
  else none

/-- DBG_RESET: accepted, or refused with BADKEY. -/
def execDbgReset (rtype : Byte) (value index length : Half) (s : State) : Out :=
  coreCmd (fun t => match dbgBad t rtype value index length with
    | some why => evt (refuse t .hub rtype 0x4F why) .hub 5
    | none => accept { t with rst := { t.rst with dbgHeld := true } } .hub) s

/-! ### REG_READ (R206, R207) -/

/-- Addresses that are sampled: the one word of a FIXED request is sampled once, and every sample returns that value
(R33). -/
def sampleAddrs (r : RegReq) : List Half := if r.fixed then [r.index] else r.addrs

/-- The words that a request returns, from those it sampled. -/
def wordsOut (r : RegReq) (l : List Word) : List Word := if r.fixed then List.replicate r.words (l.headD 0) else l

/-- Uncorrectable entries that RXWIN0 meets at the head of its queue, one for each time `bad` names its address (13 R361). -/
def eccFirst (s : State) (l bad : List Half) : State :=
  l.foldl (fun t a => match placeOf a with
    | .page (.mvf i) 0xA0 =>
      if rxOff t i || (t.hdr (.mvf i)).inrst || (rxCurrent (t.inst i)).isSome then t
      else rxCheck rxQueue (List.replicate (bad.filter (· = a)).length none) 1 0 t i
    | .page _ _ => t
    | .flm _ _ => t
    | .rtm _ => t
    | .reserved => t) s

/-- The request samples its words, applies the side effects together, and its DATA is ready (R207). -/
def regComplete (s : State) (r : RegReq) (err : RdErr) : State :=
  let l := sampleAddrs r
  let t := sampleAll err.bad l (sramCorr s err.corr)
  (giveData (l.foldl readEffect t.2) r.func ((wordsOut r t.1).flatMap wordBytes)).modEp r.func fun e =>
    { e with wait := none }

/-- A request abandoned before its side effects (R207): the samples have been taken, no side effect applies, and an entry that
RXWIN0 had selected is back at its queue position with its number unconsumed (13 R350). -/
def regAbandon (s : State) (l : List Half) (err : RdErr) : State :=
  l.foldl (fun t a => match placeOf a with
    | .page (.mvf _) 0xA0 => t
    | .page _ _ => sampleEffect t a err.bad
    | .flm _ _ => sampleEffect t a err.bad
    | .rtm _ => sampleEffect t a err.bad
    | .reserved => t) (sramCorr (eccFirst s l err.bad) err.corr)

/-- An RS word with no item makes the request wait with no side effect (R48). -/
def regRead (s : State) (r : RegReq) (err : RdErr) (abandoned : Option Nat) : State :=
  match abandoned with
  | some k => regAbandon s ((sampleAddrs r).take k) err
  | none =>
    let s1 := eccFirst s (sampleAddrs r) err.bad
    if (sampleAddrs r).any (wordWaits s1) then
      s1.modEp r.func fun e => { e with wait := some ⟨r.value, r.index, r.length⟩ }
    else regComplete s1 r err

/-- REG_READ. `err` is what the memories give; `abandoned` says how many words had been sampled when a SETUP or a link reset
abandoned the request. -/
def execRegRead (f : Func) (value index length : Half) (err : RdErr) (abandoned : Option Nat) (s : State) : Out :=
  coreCmd (fun t =>
    let r : RegReq := ⟨f, true, value, index, length⟩
    if !configured t f then refuse t f (regRtype r false) 0x40 .state
    else match orElse (regBad r) (if regWalled t r then some .off else none) with
      | some why => accViol (refuse t f (regRtype r false) 0x40 why) r
      | none => regRead t r err abandoned) s

/-- The request that waits. -/
def waitReq (f : Func) (w : RegWait) : RegReq := ⟨f, true, w.value, w.index, w.length⟩

/-- Instances whose RXWIN0 a request reads. -/
def waitInsts (r : RegReq) : List Inst := allInsts.filter fun i => (sampleAddrs r).any fun a => a.toNat = 0x24A0 + 256 * i.val

/-- A waiting request completes; each instance of `is` raises WAITEXP (R352). -/
def regExpire (s : State) (r : RegReq) (err : RdErr) (is : List Inst) : State :=
  is.foldl (fun t i => evt t (.mvf i) 12) (regComplete s r err)

/-- The waiting read finds its item: uncorrectable entries at the head are lost first (13 R361), and where none is left the
wait goes on. -/
def regResume (s : State) (r : RegReq) (err : RdErr) : State :=
  let s1 := eccFirst s (sampleAddrs r) err.bad
  if (sampleAddrs r).any (wordWaits s1) then s1 else regExpire s1 r err ((waitInsts r).filter (rxOff s1))

/-- REG_READ_RESUME: the item has come, or a condition of R353 has started, which completes the read as WAITLIM does. -/
def execRegReadResume (f : Func) (err : RdErr) (s : State) : Out :=
  match (s.ep f).wait with
  | none => .next s
  | some w =>
    if (sampleAddrs (waitReq f w)).any (wordWaits s) then .next s
    else coreCmd (fun t => regResume t (waitReq f w) err) s

/-- The wait expires: an entry that has come meanwhile is taken (R352), unless it cannot be read (13 R361). -/
def regWaitEnd (s : State) (r : RegReq) (i : Inst) (err : RdErr) : State :=
  let s1 := eccFirst s (sampleAddrs r) err.bad
  regExpire s1 r err (if winEmpty s1 i || rxOff s1 i then [i] else [])

/-- WAITEXP: the wait of a read that names instance `i` reaches WAITLIM × 256 lk; with WAITLIM 0 it never does. -/
def execWaitexp (f : Func) (i : Inst) (err : RdErr) (s : State) : Out :=
  match (s.ep f).wait with
  | none => .next s
  | some w =>
    if (waitInsts (waitReq f w)).contains i && (decide ((s.inst i).waitLim ≠ 0) || rxOff s i) then
      coreCmd (fun t => regWaitEnd t (waitReq f w) i err) s
    else .next s

/-! ### REG_WRITE (R208–R211) -/

/-- Execute the words in order, each in an lk of its own (R207); a word that resets the hub stops the rest. DONE counts the
words (R209). -/
def writeAll (r : RegReq) : Nat → List (Half × Word) → State → State
  | _, [], s => s
  | k, (a, w) :: l, s =>
    let s1 := newLk (writeWord s a w)
    if coreRuns s1 then writeAll r (k + 1) l (tagMark s1 r .incomplete (k + 1)) else s1

/-- A REG_WRITE past its check: it enters the window as incomplete with DONE 0 and waits for its data (Table 8.10). -/
def regWriteOpen (s : State) (r : RegReq) : State :=
  (tagPush s r .incomplete).modEp r.func fun e => { e with regOpen := some (r.value, r.index, r.length) }

/-- A REG_WRITE whose data has come: `executed` of its words execute, all of them unless the transfer was abandoned (R208). -/
def regWriteRun (s : State) (r : RegReq) (words : List Word) (executed : Nat) : State :=
  let s1 := s.modEp r.func fun e => { e with regOpen := none }
  let s2 := writeAll r 0 ((r.addrs.zip words).take executed) s1
  if coreRuns s2 && decide (r.words ≤ executed) then accept (tagMark s2 r .complete 0) r.func else s2

/-- The words are the bytes of the data stage, LSB first (00 R10). -/
def regWriteData (s : State) (r : RegReq) (executed : Nat) : State :=
  if (s.ep r.func).got.length = r.length.toNat then regWriteRun s r (wordsOf (s.ep r.func).got) executed else s

/-- REG_WRITE: the check against the window, once for each request, and the words once their data has come (R208, log 50). -/
def execRegWrite (f : Func) (value index length : Half) (executed : Nat) (s : State) : Out :=
  coreCmd (fun t =>
    let r : RegReq := ⟨f, true, value, index, length⟩
    if (t.ep f).regOpen = some (value, index, length) then regWriteData t r executed
    else match regWriteGate t r (regRtype r true) with
      | some u => u
      | none => regWriteData (regWriteOpen t r) r executed) s

end Sys2Proof.Machine
end

