-- ==== Sys2Proof/Machine/Endpoints.lean ====
section
/-! DEFINITION. The bulk and scheduled endpoints of the bridge function (12 R309, 13 R354–R356), and the translator's
answers to the host (10 R254). -/

namespace Sys2Proof.Machine

/-! ### The bridge endpoints (07 Tables 7.7 and 7.8) -/

/-- Indices of the three endpoints of an instance: EP(3n+1), EP(3n+2), EP(3n+3). -/
def epOut (i : Inst) : Fin 12 := ⟨3 * i.val, by omega⟩
def epBulk (i : Inst) : Fin 12 := ⟨3 * i.val + 1, by omega⟩
def epUrg (i : Inst) : Fin 12 := ⟨3 * i.val + 2, by omega⟩

/-- EP number of an endpoint. -/
def epNum (k : Fin 12) : BitVec 4 := BitVec.ofNat 4 (k.val + 1)

/-- What a bridge endpoint answers before its own state counts: nothing while the function is not configured, STALL from
the wrapper of an instance in Block reset or in Siding (12 R323, R327, R329), STALL while halted. -/
def bridgeEp (s : State) (i : Inst) (k : Fin 12) (seq : Bool) (g : State → State) : State :=
  if !s.hub.brConf then s
  else if instWalled s i || (s.bep k).halted then say s .bridge .stall (epNum k) seq
  else g s

/-- An OUT or OUTZ that the endpoint takes or leaves (12 R309). -/
def bulkOut (s : State) (i : Inst) (seq : Bool) (p : List Byte) : State :=
  let k := epOut i
  let e := s.bep k
  if !e.fresh && seq ≠ e.seq then say (dupCount s) .bridge .ack (epNum k) seq
  else if !(s.hdr (.mvf i)).en || !(s.hdr .mbr).en || decide (2048 < stagedBytes (s.inst i) + p.length) then
    say s .bridge .nrdy (epNum k) seq
  else
    let s1 := stageAll (s.modBep k fun e => { e with seq := !seq, fresh := false }) i p
    say s1 .bridge .ack (epNum k) seq

/-- BULK_OUT. A LEN failure gets no response, whatever the state of the endpoint (07 Table 7.7); an empty payload is an OUTZ, which carries no record (12 R308). -/
def execBulkOut (i : Inst) (seq : Bool) (payload : List Byte) (s : State) : Out :=
  hostRow (toFunc .bridge fun t =>
    if 512 < payload.length then t else bridgeEp t i (epOut i) seq fun u => bulkOut u i seq payload) s

/-- An IN token shows that the host already holds the pending DATA (R182). -/
def inShows (s : State) (k : Fin 12) (seq : Bool) : State :=
  let e := s.bep k
  if e.fresh then s.modBep k fun e => { e with seq := seq, fresh := false }
  else if e.pend.isSome && seq ≠ e.seq then bepDeliver s k else s

/-- Send DATA of entries; it becomes pending. -/
def bepSend (s : State) (k : Fin 12) (p : List Byte) : State :=
  let q := (s.bep k).seq
  sayData (s.modBep k fun e => { e with pend := some p, ackable := true }) .bridge (epNum k) q p

/-- The token accepts the payload, and its DATA ends by the babble point (R168, R189). -/
def tokenTakes (s : State) (len : BitVec 10) (n : Nat) : Bool := decide (n ≤ len.toNat + 1) && dataFits s n

/-- Send the pending DATA again. -/
def bepResend (s : State) (k : Fin 12) (seq : Bool) (len : BitVec 10) (p : List Byte) : State :=
  if tokenTakes s len p.length then bepSend s k p else say s .bridge .nrdy (epNum k) seq

/-- Select entries and send them, as many as the bulk DATA may carry (R354). -/
def bulkSend (s : State) (i : Inst) (seq : Bool) (len : BitVec 10) : State :=
  let k := epBulk i
  let n := min 6 (min ((len.toNat + 1) / 80) (rxQueue (s.inst i)).length)
  if n = 0 || !dataFits s (80 * n) then say s .bridge .nrdy (epNum k) seq
  else
    let arrs := ((rxQueue (s.inst i)).take n).map (·.arr)
    let s1 := s.modInst i fun m => rxSelectAll m arrs .bulk
    let p := arrs.flatMap fun a => ((s1.inst i).rx.filter fun e => e.arr = a).flatMap entryBytes
    bepSend s1 k p

/-- BULK_IN after the wrapper. -/
def bulkIn (s : State) (i : Inst) (seq : Bool) (len : BitVec 10) (ecc : List SramRead) : State :=
  let k := epBulk i
  let s1 := inShows s k seq
  if rxOff s1 i then say s1 .bridge .nrdy (epNum k) seq
  else match (s1.bep k).pend with
    | some p => bepResend s1 k seq len p
    | none =>
      if len.toNat + 1 < 80 then say s1 .bridge .nrdy (epNum k) seq
      else bulkSend (rxCheck rxQueue ecc (min 6 ((len.toNat + 1) / 80)) 0 s1 i) i seq len

/-- BULK_IN: `ecc` is what the SRAM gives for each entry that the selection checks (R361). -/
def execBulkIn (i : Inst) (seq : Bool) (len : BitVec 10) (ecc : List SramRead) (s : State) : Out :=
  hostRow (toFunc .bridge fun t => bridgeEp t i (epBulk i) seq fun u => bulkIn u i seq len ecc) s

/-- An urgent entry that no QUEUED entry of equal ID precedes by arrival (R355). -/
def urgentReady (q : List RxEntry) (e : RxEntry) : Bool := e.urg && !q.any fun x => x.id = e.id && decide (x.arr < e.arr)

/-- The urgent entries that a DATA may take, in queue order. -/
def urgentQueue (m : Mvf) : List RxEntry := (rxQueue m).filter (urgentReady (rxQueue m))

/-- Send DATA in answer to a SIN: delivered as soon as it is sent (R355, R356). -/
def urgentSinSend (s : State) (i : Inst) (p : List Byte) : State :=
  let k := epUrg i
  let s1 := sayData s .bridge (epNum k) (s.bep k).seq p
  let s2 := s1.modBep k fun e => { e with pend := none, seq := !e.seq, ackable := false }
  poolChanged (s2.modInst i fun m => rxDeliver m .urgent)

/-- Take up to two urgent entries and send them. -/
def urgentSend (s : State) (i : Inst) (sin seq : Bool) (len : BitVec 10) : State :=
  let k := epUrg i
  let n := min 2 (min ((len.toNat + 1) / 80) (urgentQueue (s.inst i)).length)
  if n = 0 || !dataFits s (80 * n) then say s .bridge .nrdy (epNum k) seq
  else
    let arrs := ((urgentQueue (s.inst i)).take n).map (·.arr)
    let s1 := s.modInst i fun m => rxSelectAll m arrs .urgent
    let p := arrs.flatMap fun a => ((s1.inst i).rx.filter fun e => e.arr = a).flatMap entryBytes
    if sin then urgentSinSend s1 i p else bepSend s1 k p

/-- URGENT_IN after the wrapper. A SIN that finds a DATA pending from an IN sends that DATA (log 34). -/
def urgentIn (s : State) (i : Inst) (sin seq : Bool) (len : BitVec 10) (ecc : List SramRead) : State :=
  let k := epUrg i
  let s1 := if sin then s else inShows s k seq
  if rxOff s1 i then say s1 .bridge .nrdy (epNum k) seq
  else match (s1.bep k).pend with
    | some p =>
      if sin then (if tokenTakes s1 len p.length then urgentSinSend s1 i p else say s1 .bridge .nrdy (epNum k) seq)
      else bepResend s1 k seq len p
    | none =>
      if len.toNat + 1 < 80 then say s1 .bridge .nrdy (epNum k) seq
      else urgentSend (rxCheck urgentQueue ecc (min 2 ((len.toNat + 1) / 80)) 0 s1 i) i sin seq len

/-- URGENT_IN: a SIN or an IN on EP(3n+3); `ecc` as in BULK_IN. -/
def execUrgentIn (i : Inst) (sin : Bool) (seq : Bool) (len : BitVec 10) (ecc : List SramRead) (s : State) : Out :=
  hostRow (toFunc .bridge fun t => bridgeEp t i (epUrg i) seq fun u => urgentIn u i sin seq len ecc) s

/-! ### The translator's answers (10 R251–R256, Table 10.2) -/

/-- A handshake of the translator: an ACK carries the credit counts (R251). -/
def xltSay (s : State) (n : Port) (t : RespType) (addr : BitVec 7) (ep : BitVec 4) (seq : Bool) : State :=
  let p := s.xport n
  answered (reply s t addr ep (if t = .stall then false else seq)
    (if t = .ack then 32 * inFree p + outFree p else 0) []) false

/-- A packet of the host whose ADDR routes to a Basic port (07 Table 7.4): answered while the port is translated, NRDY during a Block reset of XLT, else no
answer (R269–R272, 05 Table 5.7). -/
def toXport (n : Port) (addr : BitVec 7) (ep : BitVec 4) (seq : Bool) (g : State → State) (s : State) : State :=
  let s1 := (silent s).modXport n fun p => { p with ackable := none }
  if (s.hdr .ttb).inrst || routeOf s addr != .port n then s1
  else if tooLate s then cutOff s1
  else if (s.hdr .xlt).inrst && enabledBasic s n && !(s.port n).suspReq then xltSay s1 n .nrdy addr ep seq
  else if !translated s n then s1
  else g s1

/-- The bytes of a packet are a SETUP that clears the halt of an endpoint: its number and direction IN (R266). -/
def clrHaltOf (b : List Byte) : Option (BitVec 4 × Bool) :=
  if b.length = 8 && b.getD 0 0 = 0x02 && b.getD 1 0 = 0x06 then
    some ((b.getD 4 0).setWidth 4, (b.getD 4 0).getLsbD 7)
  else none

/-- The clearing of one group's mark (R266). -/
def clearMark (p : XPort) (ep : BitVec 4) (isIn : Bool) : XPort :=
  if isIn then
    { p with inHalt := p.inHalt &&& ~~~(BitVec.ofNat 16 (1 <<< ep.toNat)), inExp := p.inExp.set ep.toNat false ep.isLt }
  else
    { p with outHalt := p.outHalt &&& ~~~(BitVec.ofNat 16 (1 <<< ep.toNat)), lastSeq := p.lastSeq.set ep.toNat none ep.isLt }

/-- What the store of a SETUP clears (R254, R266). The IN data and status packets of the transfer start with SEQ 1. -/
def setupStored (p : XPort) (seq : Bool) (b : List Byte) : XPort :=
  let p1 := clearMark (clearMark p 0 false) 0 true
  let p2 := { p1 with lastSetup := some (seq, b), inExp := p1.inExp.set 0 true }
  match clrHaltOf b with
  | some (e, d) => if e = 0 then p2 else clearMark p2 e d
  | none => p2

/-- What the store of a packet leaves for the detection of repeats (R254). -/
def noteStored (p : XPort) (kind : OutKind) (ep : BitVec 4) (seq : Bool) (b : List Byte) : XPort :=
  match kind with
  | .setup => setupStored p seq b
  | .out | .outz =>
    { p with lastSeq := p.lastSeq.set ep.toNat (some seq) ep.isLt, lastSetup := if ep = 0 then none else p.lastSetup }
  | .sout => { p with lastSetup := if ep = 0 then none else p.lastSetup }

def itemKind : OutKind → ItemKind
  | .out => .out | .outz => .outz | .setup => .setup | .sout => .sout

/-- Store a new OUT-direction packet (R248). -/
def xltStore (s : State) (n : Port) (kind : OutKind) (addr : BitVec 7) (ep : BitVec 4) (seq : Bool) (b : List Byte) :
    State :=
  s.modXport n fun p =>
    match pickBank p.ob p.obLast with
    | none => p
    | some k =>
      noteStored { p with
        ob := p.ob.set k.val (writeSlot p.ob[k]) k.isLt, obLast := some k,
        items := p.items ++ [{ kind := itemKind kind, ep := ep, addr := addr, seq := seq, bytes := b, bank := k }] }
        kind ep seq b

/-- A repeat (R254). -/
def xltRepeat (p : XPort) (kind : OutKind) (ep : BitVec 4) (seq : Bool) (b : List Byte) : Bool :=
  match kind with
  | .out | .outz => p.lastSeq[ep.toNat] = some seq
  | .setup => p.lastSetup = some (seq, b)
  | .sout => false

/-- The OUT-direction part of Table 10.2. -/
def xltOut (s : State) (n : Port) (kind : OutKind) (addr : BitVec 7) (ep : BitVec 4) (seq : Bool) (b : List Byte) :
    State :=
  let p := s.xport n
  if 64 < b.length then raise { s with xlt := { s.xlt with ovszCnt := inc16 s.xlt.ovszCnt } } .xlt 1
  else if kind ≠ .setup && marked p (grp false ep) then xltSay s n .stall addr ep seq
  else if xltRepeat p kind ep seq b then xltSay (dupCount s) n .ack addr ep seq
  else if outFree p = 0 then
    xltSay (raise { s with xlt := { s.xlt with ovcrCnt := inc16 s.xlt.ovcrCnt } } .xlt 0) n .nrdy addr ep seq
  else xltSay (xltStore s n kind addr ep seq b) n .ack addr ep seq

/-- XLT_OUT_PACKET. -/
def execXltOutPacket (n : Port) (kind : OutKind) (addr : BitVec 7) (ep : BitVec 4) (seq : Bool) (payload : List Byte)
    (s : State) : Out :=
  hostRow (toXport n addr ep seq fun t => xltOut t n kind addr ep seq payload) s

/-- Send the stored item's DATA or DATAZ: pending for an IN, finished for a SIN (R254). -/
def xltSendItem (s : State) (n : Port) (i : Item) (sin : Bool) (addr : BitVec 7) : State :=
  let s1 := answered (reply s (if i.bytes.isEmpty then .dataz else .data) addr i.ep i.seq (i.bytes.length - 1) i.bytes) true
  if sin then finishIn s1 n i
  else s1.modXport n fun p =>
    { p with items := p.items.map (fun x => if x.isIn && x.grp = i.grp then { x with sent := true } else x),
             ackable := some i.ep }

/-- NOIN. -/
def noIn (s : State) : State := evt { s with xlt := { s.xlt with noinCnt := inc16 s.xlt.noinCnt } } .xlt 25

/-- INLEN. -/
def inLen (s : State) : State := evt { s with xlt := { s.xlt with inlenCnt := inc16 s.xlt.inlenCnt } } .xlt 26

/-- No stored item: a fetch waits, is posted, or finds no credit (Table 10.2). -/
def xltNoItem (s : State) (n : Port) (sin : Bool) (addr : BitVec 7) (ep : BitVec 4) (seq : Bool) (len : BitVec 10) : State :=
  let p := s.xport n
  let s1 :=
    if (inItem p ep).isSome then s
    else if 1 ≤ inFree p then postFetch s n sin addr ep (min 63 len.toNat)
    else noIn s
  xltSay s1 n .nrdy addr ep seq

/-- The IN-direction part of Table 10.2. `ecc` is what the SRAM gives where the stored item's slot is read: with an uncorrectable error
(R268) the item is discarded, and the marked group answers STALL (log 35). A token that is too short for an item which has been sent is
judged by the table's order, before its SEQ can show the delivery of R182 (DESIGN CHOICE, log 47). -/
def xltIn (s : State) (n : Port) (sin : Bool) (addr : BitVec 7) (ep : BitVec 4) (seq : Bool) (len : BitVec 10)
    (ecc : SramRead) : State :=
  let p := s.xport n
  if marked p (grp true ep) then xltSay s n .stall addr ep seq
  else match inItem p ep with
    | none => xltNoItem s n sin addr ep seq len
    | some i =>
      if !i.stored then xltSay s n .nrdy addr ep seq
      else if len.toNat + 1 < i.bytes.length then xltSay (inLen s) n .nrdy addr ep seq
      else if !sin && i.sent && seq ≠ i.seq then xltNoItem (finishIn s n i) n sin addr ep seq len
      else match ecc with
        | none => xltSay (xltEcc s n fun x => x.isIn && x.grp = i.grp) n .stall addr ep seq
        | some k =>
          if !i.bytes.isEmpty && !dataFits s i.bytes.length then xltSay s n .nrdy addr ep seq
          else xltSendItem (sramCorr s k) n i sin addr

/-- XLT_IN_TOKEN. -/
def execXltInToken (n : Port) (sin : Bool) (addr : BitVec 7) (ep : BitVec 4) (seq : Bool) (len : BitVec 10)
    (ecc : SramRead) (s : State) : Out :=
  hostRow (toXport n addr ep seq fun t => xltIn t n sin addr ep seq len ecc) s

end Sys2Proof.Machine
end

