-- ==== Sys2Proof/Machine/Dispatch.lean ====
section
/-! DEFINITION. One arm per command of spec/opcode_table.json: its meaning, by name. -/

namespace Sys2Proof.Machine

/-- The effect of a command on everything but the queue. -/
def exec (i : Instr) (s : State) : Host.Outcome State Fault Refusal :=
  match i with
  | .railValid r => Sys2Proof.Machine.execRailValid r s
  | .por => Sys2Proof.Machine.execPor s
  | .porRelease => Sys2Proof.Machine.execPorRelease s
  | .bor r => Sys2Proof.Machine.execBor r s
  | .borRelease r => Sys2Proof.Machine.execBorRelease r s
  | .pin d => Sys2Proof.Machine.execPin d s
  | .wdg => Sys2Proof.Machine.execWdg s
  | .wdgwarn => Sys2Proof.Machine.execWdgwarn s
  | .clf => Sys2Proof.Machine.execClf s
  | .clfRelease => Sys2Proof.Machine.execClfRelease s
  | .lkp kind block => Sys2Proof.Machine.execLkp kind block s
  | .rstSwr key => Sys2Proof.Machine.execRstSwr key s
  | .swr => Sys2Proof.Machine.execSwr s
  | .dbgReset rtype value index length => Sys2Proof.Machine.execDbgReset rtype value index length s
  | .dbg => Sys2Proof.Machine.execDbg s
  | .fuseSense => Sys2Proof.Machine.execFuseSense s
  | .stretchEnd => Sys2Proof.Machine.execStretchEnd s
  | .resetPhaseEnd => Sys2Proof.Machine.execResetPhaseEnd s
  | .edgeWaitEnd => Sys2Proof.Machine.execEdgeWaitEnd s
  | .group1Release pads => Sys2Proof.Machine.execGroup1Release pads s
  | .memoryInitialisationEnd => Sys2Proof.Machine.execMemoryInitialisationEnd s
  | .group2Release => Sys2Proof.Machine.execGroup2Release s
  | .group3Release => Sys2Proof.Machine.execGroup3Release s
  | .group4Release => Sys2Proof.Machine.execGroup4Release s
  | .group5Release length => Sys2Proof.Machine.execGroup5Release length s
  | .wdgKickFirst => Sys2Proof.Machine.execWdgKickFirst s
  | .wdgKickSecond => Sys2Proof.Machine.execWdgKickSecond s
  | .brst b fence unfence => Sys2Proof.Machine.execBrst b fence unfence s
  | .blockResetOpen b => Sys2Proof.Machine.execBlockResetOpen b s
  | .fence b => Sys2Proof.Machine.execFence b s
  | .unfence b => Sys2Proof.Machine.execUnfence b s
  | .ctlEn b en => Sys2Proof.Machine.execCtlEn b en s
  | .registerWrite addr val => Sys2Proof.Machine.execRegisterWrite addr val s
  | .localLk0 => Sys2Proof.Machine.execLocalLk0 s
  | .frameStart frame => Sys2Proof.Machine.execFrameStart frame s
  | .fsmiss => Sys2Proof.Machine.execFsmiss s
  | .clkCtcapCap => Sys2Proof.Machine.execClkCtcapCap s
  | .clkLvlReq level => Sys2Proof.Machine.execClkLvlReq level s
  | .vminWaitEnd => Sys2Proof.Machine.execVminWaitEnd s
  | .pgoodQualification late => Sys2Proof.Machine.execPgoodQualification late s
  | .pgto => Sys2Proof.Machine.execPgto s
  | .pglost h => Sys2Proof.Machine.execPglost h s
  | .clkDivWrite c val => Sys2Proof.Machine.execClkDivWrite c val s
  | .udTrimApply => Sys2Proof.Machine.execUdTrimApply s
  | .fprogProgram val vppOk => Sys2Proof.Machine.execFprogProgram val vppOk s
  | .fprogVerify val => Sys2Proof.Machine.execFprogVerify val s
  | .fprogProgramDone took => Sys2Proof.Machine.execFprogProgramDone took s
  | .fprogVerifyDone => Sys2Proof.Machine.execFprogVerifyDone s
  | .optProgProgram val vppOk => Sys2Proof.Machine.execOptProgProgram val vppOk s
  | .optProgVerify val vppOk => Sys2Proof.Machine.execOptProgVerify val vppOk s
  | .optProgProgramDone cond => Sys2Proof.Machine.execOptProgProgramDone cond s
  | .optProgVerifyDone => Sys2Proof.Machine.execOptProgVerifyDone s
  | .rtmRead w parityOk => Sys2Proof.Machine.execRtmRead w parityOk s
  | .rtmWrite w val => Sys2Proof.Machine.execRtmWrite w val s
  | .mbrCfgLowclr => Sys2Proof.Machine.execMbrCfgLowclr s
  | .clockStop => Sys2Proof.Machine.execClockStop s
  | .clockReturn pattern => Sys2Proof.Machine.execClockReturn pattern s
  | .parkService => Sys2Proof.Machine.execParkService s
  | .wakePattern => Sys2Proof.Machine.execWakePattern s
  | .samplingBurst sample => Sys2Proof.Machine.execSamplingBurst sample s
  | .samplingBurstEnd edges => Sys2Proof.Machine.execSamplingBurstEnd edges s
  | .wakeSource code => Sys2Proof.Machine.execWakeSource code s
  | .pwrReqPark => Sys2Proof.Machine.execPwrReqPark s
  | .pwrReqRetain => Sys2Proof.Machine.execPwrReqRetain s
  | .pwrReqHeron => Sys2Proof.Machine.execPwrReqHeron s
  | .propose => Sys2Proof.Machine.execPropose s
  | .delayMax bit => Sys2Proof.Machine.execDelayMax bit s
  | .agreed => Sys2Proof.Machine.execAgreed s
  | .nopoll => Sys2Proof.Machine.execNopoll s
  | .hostlate => Sys2Proof.Machine.execHostlate s
  | .reaction source => Sys2Proof.Machine.execReaction source s
  | .fltStatClear mask => Sys2Proof.Machine.execFltStatClear mask s
  | .pwrunf => Sys2Proof.Machine.execPwrunf s
  | .upstreamPortReset => Sys2Proof.Machine.execUpstreamPortReset s
  | .linkReset => Sys2Proof.Machine.execLinkReset s
  | .chirp => Sys2Proof.Machine.execChirp s
  | .chirpAnswerAccepted => Sys2Proof.Machine.execChirpAnswerAccepted s
  | .chirpAnswerTimeout => Sys2Proof.Machine.execChirpAnswerTimeout s
  | .connectRetry => Sys2Proof.Machine.execConnectRetry s
  | .widthFixed confirmed => Sys2Proof.Machine.execWidthFixed confirmed s
  | .linkup => Sys2Proof.Machine.execLinkup s
  | .probe l => Sys2Proof.Machine.execProbe l s
  | .upstreamSuspend => Sys2Proof.Machine.execUpstreamSuspend s
  | .upstreamResume quiet => Sys2Proof.Machine.execUpstreamResume quiet s
  | .hubRemoteWake => Sys2Proof.Machine.execHubRemoteWake s
  | .transactionStart p => Sys2Proof.Machine.execTransactionStart p s
  | .responseRepeat p => Sys2Proof.Machine.execResponseRepeat p s
  | .responseWindowClose => Sys2Proof.Machine.execResponseWindowClose s
  | .handshakeWindowClose => Sys2Proof.Machine.execHandshakeWindowClose s
  | .babblePoint driving => Sys2Proof.Machine.execBabblePoint driving s
  | .ttbResWrite t val => Sys2Proof.Machine.execTtbResWrite t val s
  | .ep0Setup f seq q => Sys2Proof.Machine.execEp0Setup f seq q s
  | .ep0Out f seq payload => Sys2Proof.Machine.execEp0Out f seq payload s
  | .ep0Outz f seq => Sys2Proof.Machine.execEp0Outz f seq s
  | .ep0In f seq len => Sys2Proof.Machine.execEp0In f seq len s
  | .ep1Poll seq len => Sys2Proof.Machine.execEp1Poll seq len s
  | .ack addr ep seq x2 => Sys2Proof.Machine.execAck addr ep seq x2 s
  | .getDesc f value index length => Sys2Proof.Machine.execGetDesc f value index length s
  | .setAddr f value index length => Sys2Proof.Machine.execSetAddr f value index length s
  | .setConfig f value index length => Sys2Proof.Machine.execSetConfig f value index length s
  | .getConfig f value index length => Sys2Proof.Machine.execGetConfig f value index length s
  | .getStatus f endpoint value index length => Sys2Proof.Machine.execGetStatus f endpoint value index length s
  | .clrHalt f value index length => Sys2Proof.Machine.execClrHalt f value index length s
  | .setHalt f value index length => Sys2Proof.Machine.execSetHalt f value index length s
  | .setWake f value index length => Sys2Proof.Machine.execSetWake f value index length s
  | .getHubDesc f value index length => Sys2Proof.Machine.execGetHubDesc f value index length s
  | .getPortStatus f value index length => Sys2Proof.Machine.execGetPortStatus f value index length s
  | .setPortFeatPower index => Sys2Proof.Machine.execSetPortFeatPower index s
  | .setPortFeatReset index => Sys2Proof.Machine.execSetPortFeatReset index s
  | .setPortFeatSuspend index => Sys2Proof.Machine.execSetPortFeatSuspend index s
  | .clrPortFeatPower index => Sys2Proof.Machine.execClrPortFeatPower index s
  | .clrPortFeatSuspend index quiet => Sys2Proof.Machine.execClrPortFeatSuspend index quiet s
  | .clrPortFeatEnable index => Sys2Proof.Machine.execClrPortFeatEnable index s
  | .bridgeDefaultState => Sys2Proof.Machine.execBridgeDefaultState s
  | .setRoute f value index length => Sys2Proof.Machine.execSetRoute f value index length s
  | .getRoute f value index length => Sys2Proof.Machine.execGetRoute f value index length s
  | .instReset f value index length => Sys2Proof.Machine.execInstReset f value index length s
  | .regRead f value index length bad abandoned => Sys2Proof.Machine.execRegRead f value index length bad abandoned s
  | .regReadResume f bad => Sys2Proof.Machine.execRegReadResume f bad s
  | .regWrite f value index length executed => Sys2Proof.Machine.execRegWrite f value index length executed s
  | .reset n => Sys2Proof.Machine.execReset n s
  | .suspend n => Sys2Proof.Machine.execSuspend n s
  | .resume n quiet => Sys2Proof.Machine.execResume n quiet s
  | .disable n => Sys2Proof.Machine.execDisable n s
  | .pwrenRise n => Sys2Proof.Machine.execPwrenRise n s
  | .faultBlankingEnd n => Sys2Proof.Machine.execFaultBlankingEnd n s
  | .settleEnd n => Sys2Proof.Machine.execSettleEnd n s
  | .overcurrent n l => Sys2Proof.Machine.execOvercurrent n l s
  | .connect n => Sys2Proof.Machine.execConnect n s
  | .connectWithdrawn n => Sys2Proof.Machine.execConnectWithdrawn n s
  | .attach n => Sys2Proof.Machine.execAttach n s
  | .detach n => Sys2Proof.Machine.execDetach n s
  | .forcedPhaseEnd n => Sys2Proof.Machine.execForcedPhaseEnd n s
  | .chirpAccepted n => Sys2Proof.Machine.execChirpAccepted n s
  | .chirpError n => Sys2Proof.Machine.execChirpError n s
  | .resetEnd n => Sys2Proof.Machine.execResetEnd n s
  | .selfReset n => Sys2Proof.Machine.execSelfReset n s
  | .missedProbe n highSeen => Sys2Proof.Machine.execMissedProbe n highSeen s
  | .unsolicitedDrive n => Sys2Proof.Machine.execUnsolicitedDrive n s
  | .suspendPoint n q => Sys2Proof.Machine.execSuspendPoint n q s
  | .resumeDriveStart n => Sys2Proof.Machine.execResumeDriveStart n s
  | .resumeEnd n => Sys2Proof.Machine.execResumeEnd n s
  | .remoteWake n => Sys2Proof.Machine.execRemoteWake n s
  | .xltOutPacket n kind addr ep seq payload => Sys2Proof.Machine.execXltOutPacket n kind addr ep seq payload s
  | .xltInToken n sin addr ep seq len ecc => Sys2Proof.Machine.execXltInToken n sin addr ep seq len ecc s
  | .itemStart n ecc => Sys2Proof.Machine.execItemStart n ecc s
  | .itemOutcome n a => Sys2Proof.Machine.execItemOutcome n a s
  | .backoffEnd n group => Sys2Proof.Machine.execBackoffEnd n group s
  | .xltDrop val => Sys2Proof.Machine.execXltDrop val s
  | .basicFstartQuietWindowStart n => Sys2Proof.Machine.execBasicFstartQuietWindowStart n s
  | .busIdle c => Sys2Proof.Machine.execBusIdle c s
  | .selection c f => Sys2Proof.Machine.execSelection c f s
  | .attemptOutcome c o => Sys2Proof.Machine.execAttemptOutcome c o s
  | .errorDetected c e b => Sys2Proof.Machine.execErrorDetected c e b s
  | .recover c => Sys2Proof.Machine.execRecover c s
  | .busOffRecoveryComplete c => Sys2Proof.Machine.execBusOffRecoveryComplete c s
  | .idle c strobes => Sys2Proof.Machine.execIdle c strobes s
  | .stuck c strobes => Sys2Proof.Machine.execStuck c strobes s
  | .noidle c => Sys2Proof.Machine.execNoidle c s
  | .censtart c => Sys2Proof.Machine.execCenstart c s
  | .censtop c => Sys2Proof.Machine.execCenstop c s
  | .censusResponse c response => Sys2Proof.Machine.execCensusResponse c response s
  | .cendone c => Sys2Proof.Machine.execCendone c s
  | .hello c len uid info => Sys2Proof.Machine.execHello c len uid info s
  | .frameHandOver c f => Sys2Proof.Machine.execFrameHandOver c f s
  | .entryQueued k => Sys2Proof.Machine.execEntryQueued k s
  | .aged k => Sys2Proof.Machine.execAged k s
  | .rxwin0Read k bad => Sys2Proof.Machine.execRxwin0Read k bad s
  | .waitexp f k bad => Sys2Proof.Machine.execWaitexp f k bad s
  | .rxwin19Read k => Sys2Proof.Machine.execRxwin19Read k s
  | .rxcmdDrop k => Sys2Proof.Machine.execRxcmdDrop k s
  | .rxcmdResend k => Sys2Proof.Machine.execRxcmdResend k s
  | .rxack k upto => Sys2Proof.Machine.execRxack k upto s
  | .bulkIn k seq len bad => Sys2Proof.Machine.execBulkIn k seq len bad s
  | .urgentIn k sin seq len bad => Sys2Proof.Machine.execUrgentIn k sin seq len bad s
  | .mbrQuotaWrite k val => Sys2Proof.Machine.execMbrQuotaWrite k val s
  | .mbrWmWrite c val => Sys2Proof.Machine.execMbrWmWrite c val s
  | .submit k c buf ctag => Sys2Proof.Machine.execSubmit k c buf ctag s
  | .cancel k c buf => Sys2Proof.Machine.execCancel k c buf s
  | .cancelAll k => Sys2Proof.Machine.execCancelAll k s
  | .flush k => Sys2Proof.Machine.execFlush k s
  | .bulkOut k seq payload => Sys2Proof.Machine.execBulkOut k seq payload s
  | .stagedRecordMove k damaged => Sys2Proof.Machine.execStagedRecordMove k damaged s
  | .completionQueueEntry k => Sys2Proof.Machine.execCompletionQueueEntry k s
  | .txcompRead k => Sys2Proof.Machine.execTxcompRead k s

end Sys2Proof.Machine
end

