-- ==== Sys2Proof/WellFormed.lean ====
section
/-! DEFINITION. Which command terms can have come from outside: the bounds that the spec puts on the bytes of a packet, on
a request's words, on a Jexast frame and on the strobes of a line recovery. The meanings are total all the same. -/

namespace Sys2Proof

/-- A payload on the upstream lanes: LEN + 1 bytes, LEN of ten bits (07 Table 7.1). -/
def payloadWf (p : List Byte) : Bool := decide (1 ≤ p.length) && decide (p.length ≤ 1024)

/-- A packet as sampled carries no more bytes than a LEN can count (07 Table 7.1). -/
def RawPkt.wf (p : RawPkt) : Bool := decide (p.payload.length ≤ 1024)

/-- A Jexast frame carries 0 to 64 bytes (11 Table 11.1). -/
def RxFrame.wf (f : RxFrame) : Bool := decide (f.data.length ≤ 64)

/-- A packet of the translator's OUT direction: OUTZ has no payload, a SETUP has 8 bytes (07 Table 7.2). -/
def outKindWf (k : OutKind) (p : List Byte) : Bool :=
  match k with
  | .outz => p.isEmpty
  | .setup => p.length = 8
  | .out | .sout => payloadWf p

/-- No more words of a REG_WRITE are executed than its data stage carries (08 R208). -/
def regWriteWf (length : Half) (executed : Nat) : Bool := decide (executed ≤ length.toNat / 4)

/-- A REG_READ is abandoned before it has sampled more words than it has (08 R207). -/
def regReadWf (length : Half) (abandoned : Option Nat) : Bool := abandoned.all fun k => decide (k ≤ length.toNat / 4)

/-- A number of strobes of a line recovery (11 Table 11.10, RCV.STROBES). -/
def strobesWf (n : Nat) : Bool := decide (1 ≤ n) && decide (n ≤ 1024)

/-- The bound of a command's operands; a command whose operand types say it all is well formed. -/
def Instr.wf (i : Instr) : Bool :=
  match i with
  | .transactionStart p => p.wf
  | .ep0Out _ _ p => payloadWf p
  | .bulkOut _ _ p => decide (p.length ≤ 1024)
  | .xltOutPacket _ k _ _ _ p => outKindWf k p
  | .regWrite _ _ _ l n => regWriteWf l n
  | .regRead _ _ _ l _ k => regReadWf l k
  | .responseRepeat p => p.wf
  | .frameHandOver _ f => f.wf
  | .idle _ n => strobesWf n
  | .stuck _ n => strobesWf n
  | .hello _ len _ _ => decide (len ≤ 64)
  | .itemOutcome _ (.data _ bs) => decide (bs.length ≤ 1024)
  | .itemOutcome _ .ack | .itemOutcome _ .nrdy | .itemOutcome _ .stall | .itemOutcome _ .absent | .itemOutcome _ .failed => true
  | .railValid _ | .por | .porRelease | .bor _ | .borRelease _ | .pin _ | .wdg | .wdgwarn | .clf | .clfRelease
  | .lkp _ _ | .rstSwr _ | .swr | .dbgReset _ _ _ _ | .dbg | .fuseSense | .stretchEnd | .resetPhaseEnd
  | .edgeWaitEnd | .group1Release _ | .memoryInitialisationEnd | .group2Release | .group3Release | .group4Release
  | .group5Release _ | .wdgKickFirst | .wdgKickSecond | .brst _ _ _ | .blockResetOpen _ | .fence _ | .unfence _
  | .ctlEn _ _ | .registerWrite _ _ | .localLk0 | .frameStart _ | .fsmiss | .clkCtcapCap | .clkLvlReq _
  | .vminWaitEnd | .pgoodQualification _ | .pgto | .pglost _ | .clkDivWrite _ _ | .udTrimApply | .fprogProgram _ _
  | .fprogVerify _ | .fprogProgramDone _ | .fprogVerifyDone | .optProgProgram _ _ | .optProgVerify _ _
  | .optProgProgramDone _ | .optProgVerifyDone | .rtmRead _ _ | .rtmWrite _ _ | .mbrCfgLowclr | .clockStop
  | .clockReturn _ | .parkService | .wakePattern | .samplingBurst _ | .samplingBurstEnd _ | .wakeSource _
  | .pwrReqPark | .pwrReqRetain | .pwrReqHeron | .propose | .delayMax _ | .agreed | .nopoll | .hostlate
  | .reaction _ | .fltStatClear _ | .pwrunf | .upstreamPortReset | .linkReset | .chirp | .chirpAnswerAccepted
  | .chirpAnswerTimeout | .connectRetry | .widthFixed _ | .linkup | .probe _ | .upstreamSuspend | .upstreamResume _
  | .hubRemoteWake | .responseWindowClose | .handshakeWindowClose | .babblePoint _
  | .ttbResWrite _ _ | .ep0Setup _ _ _ | .ep0Outz _ _ | .ep0In _ _ _ | .ep1Poll _ _ | .ack _ _ _ _ | .getDesc _ _ _ _
  | .setAddr _ _ _ _ | .setConfig _ _ _ _ | .getConfig _ _ _ _ | .getStatus _ _ _ _ _ | .clrHalt _ _ _ _
  | .setHalt _ _ _ _ | .setWake _ _ _ _ | .getHubDesc _ _ _ _ | .getPortStatus _ _ _ _ | .setPortFeatPower _
  | .setPortFeatReset _ | .setPortFeatSuspend _ | .clrPortFeatPower _ | .clrPortFeatSuspend _ _
  | .clrPortFeatEnable _ | .bridgeDefaultState | .setRoute _ _ _ _ | .getRoute _ _ _ _ | .instReset _ _ _ _
  | .regReadResume _ _ | .reset _ | .suspend _ | .resume _ _ | .disable _ | .pwrenRise _
  | .faultBlankingEnd _ | .settleEnd _ | .overcurrent _ _ | .connect _ | .connectWithdrawn _ | .attach _ | .detach _
  | .forcedPhaseEnd _ | .chirpAccepted _ | .chirpError _ | .resetEnd _ | .selfReset _ | .missedProbe _ _
  | .unsolicitedDrive _ | .suspendPoint _ _ | .resumeDriveStart _ | .resumeEnd _ | .remoteWake _
  | .xltInToken _ _ _ _ _ _ _ | .itemStart _ _ | .backoffEnd _ _ | .xltDrop _ | .basicFstartQuietWindowStart _
  | .busIdle _ | .selection _ _ | .attemptOutcome _ _ | .errorDetected _ _ _ | .recover _ | .busOffRecoveryComplete _
  | .noidle _ | .censtart _ | .censtop _ | .censusResponse _ _ | .cendone _ | .entryQueued _ | .aged _
  | .rxwin0Read _ _ | .waitexp _ _ _ | .rxwin19Read _ | .rxcmdDrop _ | .rxcmdResend _ | .rxack _ _ | .bulkIn _ _ _ _
  | .urgentIn _ _ _ _ _ | .mbrQuotaWrite _ _ | .mbrWmWrite _ _ | .submit _ _ _ _ | .cancel _ _ _ | .cancelAll _
  | .flush _ | .stagedRecordMove _ _ | .completionQueueEntry _ | .txcompRead _ => true

end Sys2Proof
end

