-- ==== Sys2Proof/Safety.lean ====
section
/-! DEFINITION. What counts as a safe run of the hub, and the frame of a command: what it leaves unchanged, in the terms
the statements use. -/

namespace Sys2Proof

open Machine

/-! ### Safe runs -/

/-- A step that leaves the machine with a next state: neither a fault nor a refusal. -/
def Completes (o : Host.Outcome State Fault Refusal) : Prop := ∃ t, o = .next t

/-- Every waiting command can have been sent: it is well formed. -/
def QueueWf (s : State) : Prop := ∀ i ∈ s.pending, i.wf = true

/-- The memories hold their canonical form (05 R131, 13 R335). -/
abbrev MemOk (s : State) : Prop := Memory.wf s.mem = true

/-- The pool and its quotas: at most 512 entries are held, the minima sum to at most 512, and no minimum is above its
maximum (13 R340, R342; log 36). -/
abbrev PoolOk (s : State) : Prop :=
  (s.inst 0).rx.length + (s.inst 1).rx.length + (s.inst 2).rx.length + (s.inst 3).rx.length ≤ 512 ∧
  s.mbr.qMin[(0 : Inst)] + s.mbr.qMin[(1 : Inst)] + s.mbr.qMin[(2 : Inst)] + s.mbr.qMin[(3 : Inst)] ≤ 512 ∧
  ∀ i : Inst, s.mbr.qMin[i] ≤ s.mbr.qMax[i]

/-! ### The parts of the state -/

/-- The parts of the state, apart from the page headers. -/
inductive Part where
  | pins | rst | clk | opt | sys | dbg | bkp | upl | hub | ep0 | beps | ttb | ports | lastRise | xlt | jx | mbr | mvf
  | pwr | aon | flt | mem | parBad | flmOld | now | free | stamp | answer | repUp | sent
  deriving DecidableEq, Repr

/-- A part is unchanged from `s` to `t`. Every command is followed by the votes of a round in progress and by the idle
count (14 R367–R373, R379), so the power fields that those move are excepted; without a round only the idle count moves. -/
def Part.same (p : Part) (s t : State) : Prop :=
  match p with
  | .pins => t.pins = s.pins
  | .rst => t.rst = s.rst
  | .clk =>
    { t.clk with armed := s.clk.armed, vsteps := s.clk.vsteps } = s.clk ∧ (s.pwr.round = .none → t.clk = s.clk)
  | .opt => t.opt = s.opt
  | .sys => t.sys = s.sys
  | .dbg => t.dbg = s.dbg
  | .bkp => t.bkp = s.bkp
  | .upl => t.upl = s.upl
  | .hub => t.hub = s.hub
  | .ep0 => t.ep0 = s.ep0
  | .beps => t.beps = s.beps
  | .ttb => t.ttb = s.ttb
  | .ports => t.ports = s.ports
  | .lastRise => t.lastRise = s.lastRise
  | .xlt => t.xlt = s.xlt
  | .jx => t.jx = s.jx
  | .mbr => t.mbr = s.mbr
  | .mvf => t.mvf = s.mvf
  | .pwr =>
    { t.pwr with
      exit := s.pwr.exit, round := s.pwr.round, entry := s.pwr.entry, consented := s.pwr.consented, idleCnt := s.pwr.idleCnt,
      refused := s.pwr.refused, refState := s.pwr.refState, refReason := s.pwr.refReason,
      refBlock := s.pwr.refBlock } = s.pwr ∧
    (s.pwr.round = .none → { t.pwr with idleCnt := s.pwr.idleCnt } = s.pwr)
  | .aon =>
    { t.aon with armed := s.aon.armed, latched := s.aon.latched, first := s.aon.first, early := s.aon.early } = s.aon ∧
    (s.pwr.round = .none → t.aon = s.aon)
  | .flt => t.flt = s.flt
  | .mem => t.mem = s.mem
  | .parBad => t.parBad = s.parBad
  | .flmOld => t.flmOld = s.flmOld
  | .now => t.now = s.now
  | .free => t.free = s.free
  | .stamp => t.stamp = s.stamp
  | .answer => t.answer = s.answer
  | .repUp => t.repUp = s.repUp
  | .sent => t.sent = s.sent

/-- The part is exactly as before, power fields included. -/
def Part.exact (p : Part) (s t : State) : Prop :=
  match p with
  | .pins => t.pins = s.pins
  | .rst => t.rst = s.rst
  | .clk => t.clk = s.clk
  | .opt => t.opt = s.opt
  | .sys => t.sys = s.sys
  | .dbg => t.dbg = s.dbg
  | .bkp => t.bkp = s.bkp
  | .upl => t.upl = s.upl
  | .hub => t.hub = s.hub
  | .ep0 => t.ep0 = s.ep0
  | .beps => t.beps = s.beps
  | .ttb => t.ttb = s.ttb
  | .ports => t.ports = s.ports
  | .lastRise => t.lastRise = s.lastRise
  | .xlt => t.xlt = s.xlt
  | .jx => t.jx = s.jx
  | .mbr => t.mbr = s.mbr
  | .mvf => t.mvf = s.mvf
  | .pwr => t.pwr = s.pwr
  | .aon => t.aon = s.aon
  | .flt => t.flt = s.flt
  | .mem => t.mem = s.mem
  | .parBad => t.parBad = s.parBad
  | .flmOld => t.flmOld = s.flmOld
  | .now => t.now = s.now
  | .free => t.free = s.free
  | .stamp => t.stamp = s.stamp
  | .answer => t.answer = s.answer
  | .repUp => t.repUp = s.repUp
  | .sent => t.sent = s.sent

/-! ### Page headers -/

/-- The header of a page after the edge events `evts` and the errors `errs`: the errors accumulate, and each event that
EVT_EN enables sets its EVT_PND bit, level events among them (02 R40–R42); both are noted as new in this lk (00 R14). Nothing else of
the header moves. -/
def hdrAfter (s t : State) (b : Blk) (evts errs : Word) : Hdr :=
  let h := s.hdr b
  { h with
    err := h.err ||| errs, errNew := h.errNew ||| errs, evtNew := h.evtNew ||| (h.evtEn &&& evts),
    evtPnd := h.evtPnd ||| (h.evtEn &&& (evts ||| evtRaw t b)) }

/-- The errors that follow from the state alone: OPT IMGBAD while FALLBACK is 1 (05 Table 5.12), OVC of a port in SID while PFLT_Nn is
low (15 Table 15.2). -/
def levelErrs (s : State) (b : Blk) : Word :=
  match b with
  | .opt => if s.opt.fallback then oneBit 0 else 0
  | .prt n => if ovcLevel s n then oneBit 0 else 0
  | .sys | .pin | .clk | .rst | .bkp | .pwr | .flt | .upl | .hub | .ttb | .xlt | .jx _ | .mbr | .mvf _ | .dbg => 0

/-- A page header saw no edge event and no error but these and the level errors of the state that the command leaves; on the PWR page a
round in progress may have ended, which raises its bit 3 (14 R371). -/
def HdrTook (s t : State) (b : Blk) (evts errs : Word) : Prop :=
  t.hdr b = hdrAfter s t b evts (errs ||| levelErrs t b) ∨
    (b = .pwr ∧ s.pwr.round ≠ .none ∧ t.hdr b = hdrAfter s t b (evts ||| oneBit 3) (errs ||| levelErrs t b))

/-! ### The frame -/

/-- From `s` to `t` only the parts `ps` and the page headers of the blocks `bs` changed; and the queue did not. -/
def Frame (ps : List Part) (bs : List Blk) (s t : State) : Prop :=
  t.pending = s.pending ∧ (∀ p, p ∉ ps → p.same s t) ∧ (∀ b, b ∉ bs → HdrTook s t b 0 0)

/-! ### Results of commands -/

/-- The command completes, in a state of which `Q` holds. -/
def Gives (c : Instr) (s : State) (Q : State → Prop) : Prop := ∃ t, exec c s = .next t ∧ Q t

/-- The step answers a next state of which `Q` holds. -/
def StepGives (s : State) (Q : State → Prop) : Prop := ∃ t, step s = .next t ∧ Q t

/-- Port `n` holds `p`, every other port is as before, and its page took these events and errors. -/
def PortGets (s t : State) (n : Port) (p : PortSt) (evts errs : Word) : Prop :=
  t.port n = p ∧ (∀ m, m ≠ n → t.port m = s.port m) ∧ HdrTook s t (.prt n) evts errs

/-- Of the translator's state only that of port `n` changed. -/
def XltOnly (s t : State) (n : Port) : Prop :=
  t.xlt = { s.xlt with ports := t.xlt.ports } ∧ ∀ m, m ≠ n → t.xport m = s.xport m

/-- Channel `c` holds `j`, the other channel is as before, and its page took these events and errors. -/
def ChanGets (s t : State) (c : Chan) (j : Jx) (evts errs : Word) : Prop :=
  t.chan c = j ∧ (∀ d, d ≠ c → t.chan d = s.chan d) ∧ HdrTook s t (.jx c) evts errs

/-- Instance `i` holds `m`, the other instances are as before, and its page took these events and errors. -/
def InstGets (s t : State) (i : Inst) (m : Mvf) (evts errs : Word) : Prop :=
  t.inst i = m ∧ (∀ j, j ≠ i → t.inst j = s.inst j) ∧ HdrTook s t (.mvf i) evts errs

/-- The command completes and nothing but the end of every command happens. -/
def Nothing (c : Instr) (s : State) : Prop := Gives c s (Frame [] [] s)

/-- The registers of a port that enters another state: the lane drive ends, and LASTCHG records the cell time (09 R217). -/
def entered (s : State) (p : PortSt) (st : PState) : PortSt :=
  { p with state := st, drive := .none, chgFrame := s.clk.frame, chgLk := s.clk.lk }

/-- The registers of a port that leaves every attached state: no attach, debounce, suspend or presence count is left (log
24). -/
def cleanPort (p : PortSt) : PortSt :=
  { p with attached := false, debounce := false, suspReq := false, selSusp := false, held := false, noFs := false,
           sinceFs := none, misses := 0 }

/-- A hardware event or a command reaches the block: the core runs and the block is in no Block reset. -/
abbrev Live (s : State) (b : Blk) : Prop := coreRuns s = true ∧ (s.hdr b).inrst = false

/-! ### Words of the statements -/

/-- A port in OFF has applied its settings: POWERNOW, SPEEDNOW and SETTLENOW are those written, and with POWER 1 its PWRENn rises or
waits for its turn (09 R218, R222). -/
def Applied (p : PortSt) (rise : Bool) (q : PortSt) : Prop :=
  q.powerNow = p.power ∧ q.speedNow = p.speed ∧ q.settleNow = p.settle ∧
  (p.power = true → q.state = (if rise then .pwg else .off) ∧ q.pwrPend = !rise) ∧
  (p.power = false → q.state = .off ∧ q.pwrPend = false)

/-- The other ports are as they were. -/
def OtherPorts (s t : State) (n : Port) : Prop := ∀ m, m ≠ n → t.port m = s.port m

/-- The other channel is as it was. -/
def OtherChan (s t : State) (c : Chan) : Prop := ∀ d, d ≠ c → t.chan d = s.chan d

/-- What the end of an attempt may touch beside the channel: the buffer, and in Mirror mode the copies whose pair it settles
(12 R322, R323). -/
def attemptParts : List Part := [.jx, .mvf, .mbr, .stamp]

def attemptBlks : List Blk := [.mbr, .mvf 0, .mvf 1, .mvf 2, .mvf 3]

/-- What the start or the stop of a channel may touch: its strobe, and with a frame on the wire the end of the attempt, whose outcome
may be a free value. -/
def ChanFrame (s t : State) (c : Chan) : Prop :=
  OtherChan s t c ∧ Frame (.clk :: .free :: attemptParts) (.jx c :: attemptBlks) s t ∧
  ((s.chan c).wire = .none → s.mbr.mirNow = false → Frame [.clk, .jx] [.jx c] s t)

/-- A channel begins line recovery, at once or, where the entry handshake holds it, with the end of the hold (11 R294, 14 R369). -/
def Recovers (s t : State) (c : Chan) : Prop :=
  if held s (chanBit c) then (t.chan c).rcvWait = true ∧ (t.chan c).bus = (s.chan c).bus
  else (t.chan c).bus = .recovery ∧ (t.chan c).tec = 0 ∧ (t.chan c).recv = 0 ∧ (t.chan c).busOff = false ∧
    t.clk.strobe[c] = ⟨true, 0, s.clk.divNow[c] / 2⟩

/-- Every port that is ENABLED at Basic holds a grant (10 R250). -/
def Grants (s t : State) : Prop := ∀ n, (t.xport n).granted = (enabledBasic s n || (s.xport n).granted)

/-- What a fence of a block does to its work (09 R242, 10 R271, 11 R296, 12 R329). -/
def FencedWork (s t : State) (b : Blk) : Prop :=
  match b with
  | .prt n =>
    (t.port n).state = .sid ∧ (t.port n).pwrPend = false ∧ (t.xport n).granted = false ∧ (t.xport n).items = [] ∧
    t.ttb.now[(Fin.ofNat 9 n.val)] = 0 ∧ OtherPorts s t n ∧ Frame [.ports, .xlt, .ttb] [b] s t
  | .xlt => (∀ n : Port, (t.xport n).granted = false ∧ (t.xport n).items = []) ∧ Frame [.xlt] [b] s t
  | .jx c =>
    (t.chan c).bus = .stopped ∧ (t.chan c).wire = .none ∧ (t.chan c).cenRun = false ∧
    t.clk.strobe[c] = ⟨true, 0, s.clk.divNow[c] / 2⟩ ∧ ChanFrame s t c
  | .mbr | .mvf _ => Frame [] [b] s t
  | .sys | .pin | .clk | .rst | .opt | .bkp | .pwr | .flt | .upl | .hub | .ttb | .dbg => True

/-- What an UNFENCE that takes effect does to the work of a block (09 Table 9.2 row 14, R243, 10 R271, 11 R294, 12 R329). A port
whose EN is 0 applies nothing (log 42). PWRENn falls from an SF level of high, which delays its next rise (09 R223). -/
def UnfencedWork (s t : State) (b : Blk) : Prop :=
  match b with
  | .prt n =>
    ((s.hdr b).en = false ∨ (s.hdr b).inrst = true →
      (t.port n).state = .off ∧ (t.port n).powerNow = (s.port n).powerNow) ∧
    ((s.hdr b).en = true → (s.hdr b).inrst = false → (s.port n).pwrPend = false →
      Applied (s.port n) (!pwrHigh s n && riseAllowed s n) (t.port n)) ∧
    (t.xport n).granted = false ∧ t.ttb.ret[(Fin.ofNat 9 n.val)] = true ∧ OtherPorts s t n ∧
    Frame [.ports, .xlt, .ttb, .clk, .lastRise] [b] s t
  | .xlt =>
    ((s.hdr b).en = true → (s.hdr b).inrst = false → Grants s t) ∧
    ((s.hdr b).en = false ∨ (s.hdr b).inrst = true → t.xlt = s.xlt) ∧ Frame [.xlt] [b] s t
  | .jx c =>
    ((s.hdr b).en = true → (s.hdr b).inrst = false → Recovers s t c) ∧
    ((s.hdr b).en = false ∨ (s.hdr b).inrst = true → t.chan c = s.chan c) ∧ ChanFrame s t c
  | .mbr =>
    (∀ i : Inst, (s.hdr (.mvf i)).siding = false → ∀ k ∈ instEps i, (t.bep k).seq = false) ∧ Frame [.beps] [b] s t
  | .mvf i =>
    ((s.hdr .mbr).siding = false → ∀ k ∈ instEps i, (t.bep k).seq = false) ∧ Frame [.beps] [b] s t
  | .sys | .pin | .clk | .rst | .opt | .bkp | .pwr | .flt | .upl | .hub | .ttb | .dbg => True

/-- What a change of CTL.EN does to the work of a block (09 R241, 10 R250, 11 R294). -/
def EnabledWork (s t : State) (b : Blk) (en : Bool) : Prop :=
  match b with
  | .prt n =>
    ((s.port n).state = .sid → t.port n = s.port n) ∧
    ((s.port n).state ≠ .sid → en = false → (t.port n).state = .off ∧ (t.port n).powerNow = (s.port n).powerNow) ∧
    (en = true → (s.port n).state = .off → (s.port n).pwrPend = false →
      Applied (s.port n) (riseAllowed s n) (t.port n)) ∧
    (en = true → (s.port n).state ≠ .off → t.port n = s.port n) ∧
    OtherPorts s t n ∧ Frame [.ports, .xlt, .clk, .lastRise] [b] s t
  | .xlt =>
    (en = true → (s.hdr b).siding = false → Grants s t) ∧ (en = false ∨ (s.hdr b).siding = true → t.xlt = s.xlt) ∧
    Frame [.xlt] [b] s t
  | .jx c =>
    (en = false → (t.chan c).bus = .stopped ∧ (t.chan c).wire = .none ∧ t.clk.divNow[c] = s.clk.div[c] ∧
      t.clk.strobe[c] = ⟨true, 0, s.clk.div[c] / 2⟩) ∧
    (en = true → (s.hdr b).siding = false → Recovers s t c) ∧
    (en = true → (s.hdr b).siding = true → t.chan c = s.chan c) ∧ ChanFrame s t c
  | .mbr | .mvf _ => Frame [] [b] s t
  | .sys | .pin | .clk | .rst | .opt | .bkp | .pwr | .flt | .upl | .hub | .ttb | .dbg => True

/-- What the start of a Block reset leaves of the registers and the work of a block (05 Table 5.7). -/
def ResetWork (s t : State) (b : Blk) : Prop :=
  match b with
  | .prt n =>
    (t.port n).state = .off ∧ (t.port n).powerNow = false ∧ (t.port n).misslim = 4 ∧ (t.port n).ovcCnt = 0 ∧
    OtherPorts s t n
  | .xlt => ∀ n, (t.xport n).granted = false ∧ (t.xport n).items = []
  | .jx c =>
    (t.chan c).bus = .stopped ∧ (t.chan c).tec = 0 ∧ (t.chan c).cenTable = [] ∧ (t.chan c).cenRetry = 3 ∧
    t.clk.strobe[c].high = true
  | .mbr =>
    ∀ i, (t.inst i).rx = [] ∧ (t.inst i).staging = [] ∧ (t.inst i).cq = [] ∧ (t.inst i).lossLatch = (s.inst i).lossLatch
  | .mvf i =>
    (t.inst i).rx = [] ∧ (t.inst i).staging = [] ∧ (t.inst i).cq = [] ∧ (t.inst i).errlim = 0 ∧
    (t.inst i).lossLatch = (s.inst i).lossLatch ∧
    ∀ j, j ≠ i → t.inst j = s.inst j
  | .ttb => t.ttb = {}
  | .pwr =>
    t.pwr.round = .none ∧ t.pwr.entries = 0 ∧ t.pwr.refused = 0 ∧ t.aon.wkSet = s.aon.wkSet ∧
    t.clk.cur = s.clk.cur ∧ t.clk.vcode = s.clk.vcode ∧ t.clk.vbusy = false
  | .flt =>
    (t.hdr .flt).inrst = true ∧ t.flt.src = s.flt.src ∧ t.flt.lsev = s.flt.lsev ∧ t.flt.fences = 0 ∧
    t.flt.react = 0 ∧ t.flt.lvalid = false
  | .sys | .pin | .clk | .rst | .opt | .bkp | .upl | .hub | .dbg => True

/-- A block that stays in Siding at lk 255 of its Block reset starts no work (02 R37, 15 R397). -/
def KeptWork (s t : State) (b : Blk) : Prop :=
  match b with
  | .prt n => (t.port n).state = .sid ∧ (t.port n).powerNow = (s.port n).powerNow ∧ t.lastRise = s.lastRise
  | .xlt => ∀ n, (t.xport n).granted = false
  | .jx c => (t.chan c).bus = .stopped ∧ (t.chan c).rcvWait = false
  | .pwr => t.clk.vbusy = false ∧ t.clk.vphase = .idle
  | .sys | .pin | .clk | .rst | .opt | .bkp | .flt | .upl | .hub | .ttb | .mbr | .mvf _ | .dbg => True

/-- The state that a reset of Core or wider reach leaves at its first instant, by 05 Table 5.2: every page but those of
AON at its reset value, BORLOW clear, the AON records, the backup part, the memories, VSEL and CUR kept, the queue untouched; nothing
is answered. After a Core reset that keeps the link the first transaction of an endpoint is new (05 R108). -/
def ResetBegan (s t : State) : Prop :=
  t.ports = State.reset.ports ∧ t.xlt = State.reset.xlt ∧ t.jx = State.reset.jx ∧ t.mbr = State.reset.mbr ∧
  t.mvf = State.reset.mvf ∧ t.ttb = State.reset.ttb ∧ t.flt = State.reset.flt ∧ t.dbg = State.reset.dbg ∧
  t.sys = State.reset.sys ∧ (∀ f, t.ep f = { fresh := t.rst.keepLink }) ∧ t.pwr.round = .none ∧ t.aon = s.aon ∧
  (∀ b, b ≠ .pin → t.hdr b = State.reset.hdr b) ∧
  t.rst.borlow = false ∧ t.bkp = { s.bkp with lock := false } ∧ t.mem = s.mem ∧
  t.parBad = s.parBad ∧ t.clk.cur = s.clk.cur ∧ t.clk.vcode = s.clk.vcode ∧ t.opt.otp = s.opt.otp ∧
  t.pending = s.pending ∧ inService t = false

/-- A packet for a function reaches it: the core runs, no entry round or probe is in progress, the function is present, and the packet
belongs to a transaction of port I or comes before the cut-off (07 R189, 08 R196, 14 R371). -/
abbrev Heard (s : State) (f : Func) : Prop :=
  coreRuns s = true ∧ s.pwr.round = .none ∧ s.upl.probing = false ∧ fPresent s f = true ∧ (s.hdr .ttb).inrst = false ∧
  (s.upl.txn.target = .portI ∨ (s.upl.txn.target = .none ∧ pastCutoff s = false))

/-- The function answered with a handshake, which carries the ADDR, EP and SEQ of the packet; a STALL has SEQ 0 (07 R167). -/
def Says (s t : State) (f : Func) (typ : RespType) (ep : BitVec 4) (seq : Bool) : Prop :=
  t.answer = some ⟨typ, fAddr s f, ep, if typ = .stall then false else seq, 0, []⟩

/-- What every packet for a function may touch: the transfer, the marks of pending DATA, the transaction with its counts, the
answer and the idle count. -/
def hostParts : List Part := [.ep0, .beps, .upl, .ttb, .answer, .pwr]

/-- Why a request is refused: unknown to the function, not allowed in its state, or for its own fields (08 R198, Tables 8.1
and 8.6; the order of the grounds is the model's, log 32). -/
def judged (s : State) (f : Func) (code : Byte) (own : Option Bad) : Option Bad :=
  if known f code = false then some .unknown else if allowed s f code = false then some .state else own

/-- A refused request: protocol stall, STALLCNT, LASTBAD and BADREQ (08 R202, Table 8.13). -/
def Refuses (f : Func) (rtype code : Byte) (why : Bad) (s t : State) : Prop :=
  t.ep f = { s.ep f with stage := .halted, busy := false, pend := none, atEnd := none } ∧
  t.hub = { s.hub with
    stallCnt := inc16 s.hub.stallCnt, badReason := badCode why, badRequest := code, badRtype := rtype } ∧
  HdrTook s t .hub (oneBit 4) 0 ∧ Frame [.hub, .ep0] [.hub] s t

/-- The request is judged, then refused, or executed with the result `ok`. -/
def Request (c : Instr) (f : Func) (rtype code : Byte) (own : Option Bad) (ok : State → Prop) (s : State) : Prop :=
  (∀ why, judged s f code own = some why → Gives c s (Refuses f rtype code why s)) ∧
  (judged s f code own = none → Gives c s ok)

/-- The request has its IN data, at most LENGTH bytes of it. -/
def GaveData (f : Func) (length : Half) (d : List Byte) (s t : State) : Prop :=
  t.ep f = { s.ep f with data := d.take length.toNat, ready := true, busy := false } ∧ Frame [.ep0] [] s t

/-- The request without a data stage has executed. -/
def Executed (f : Func) (s t : State) : Prop := t.ep f = { s.ep f with busy := false }

/-- A packet whose ADDR routes to port `n` reaches the translator, which answers for its chip (10 R245, 07 R189, Table 7.4,
14 R371). -/
abbrev XltHears (s : State) (n : Port) (addr : BitVec 7) : Prop :=
  coreRuns s = true ∧ s.pwr.round = .none ∧ s.upl.probing = false ∧ (s.hdr .ttb).inrst = false ∧ translated s n = true ∧
  routeOf s addr = .port n ∧
  (s.upl.txn.target = .xlt n ∨ (s.upl.txn.target = .none ∧ pastCutoff s = false))

/-- The translator answered with a handshake; its ACK carries the credits left, INFREE × 32 + OUTFREE (10 R251). -/
def XltSays (t : State) (n : Port) (typ : RespType) (addr : BitVec 7) (ep : BitVec 4) (seq : Bool) : Prop :=
  t.answer = some ⟨typ, addr, ep, if typ = .stall then false else seq,
    BitVec.ofNat 10 (if typ = .ack then 32 * inFree (t.xport n) + outFree (t.xport n) else 0), []⟩

/-- What every packet for a translated port may touch. -/
def xltParts : List Part := [.xlt, .upl, .ttb, .answer, .pwr]

/-- A refusal of a frame or of a command: TXREJINFO, REJCNT and TXREJ (12 R307, R310). -/
def Rejects (s t : State) (i : Inst) (m : Mvf) (bulk : Bool) (reason : BitVec 4) (ctag : Byte) (evts errs : Word) : Prop :=
  InstGets s t i { m with rejTag := ctag, rejSrc := bulk, rejReason := reason, rejCnt := inc16 m.rejCnt }
    (oneBit 1 ||| evts) errs

/-- The bridge serves the instance (12 R307, R328, R329). -/
abbrev Serves (s : State) (i : Inst) : Prop := active s (.mvf i) = true ∧ active s .mbr = true

/-- What follows a change of the pool from the MBR registers `mb`: the low-water mark, and each Sluice pin by the count of its
channel; an assertion is counted and raises FLOWx (13 R362, 02 Table 2.12). -/
def PoolMoved (s t : State) (mb : Mbr) (evts errs : Word) : Prop :=
  let rose (c : Chan) : Bool := t.mbr.flow[c] && !mb.flow[c]
  t.mbr = { mb with flow := t.mbr.flow, flowCnt := t.mbr.flowCnt } ∧
  (∀ c : Chan,
    t.mbr.flow[c] = (if mb.wmHi[c] = 0 then false else if mb.wmHi[c] ≤ chUse t c then true
      else if chUse t c ≤ mb.wmLo[c] then false else mb.flow[c]) ∧
    t.mbr.flowCnt[c] = if rose c then inc16 mb.flowCnt[c] else mb.flowCnt[c]) ∧
  HdrTook s t .mbr (evts ||| (if rose 0 then oneBit 8 else 0) ||| (if rose 1 then oneBit 9 else 0)) errs ∧
  t.dbg = { s.dbg with lowest := min s.dbg.lowest (512 - heldAll t) }

/-- Entry `k` of the list of channel `c` is valid and matches the identifier (13 R335, R336). -/
abbrev FilterMatches (s : State) (c : Chan) (id : BitVec 24) (k : Nat) : Prop :=
  let w0 := memWord s.mem (0x3000 + 0x800 * c.val + 8 * k)
  let w1 := memWord s.mem (0x3000 + 0x800 * c.val + 8 * k + 4)
  let a := w0.extractLsb' 0 24
  let b := w1.extractLsb' 0 16 ++ w0.extractLsb' 24 8
  w1.getLsbD 31 = true ∧
  ((w1.extractLsb' 29 2 = 0 ∧ a ≤ id ∧ id ≤ b) ∨ (w1.extractLsb' 29 2 = 1 ∧ (id = a ∨ id = b)) ∨
    (w1.extractLsb' 29 2 = 2 ∧ (id ^^^ a) &&& b = 0))

/-- The action `a` decides the frame that the channel receives: that of the first matching entry `o`, or without one the default action;
no filter word fails its parity, and none was written since the engine started on the frame (13 R337). -/
abbrev Decided (s : State) (c : Chan) (f : RxFrame) (o : Option (Fin 256)) (a : BitVec 11) : Prop :=
  f.badWords = [] ∧ s.parBad = [] ∧ (∀ w ∈ s.flmOld, w.at_ < evalLk s c) ∧
  (∀ k ∈ o, FilterMatches s c (s.chan c).rxId k.val) ∧
  (∀ j : Fin 256, (∀ k ∈ o, j < k) → ¬ FilterMatches s c (s.chan c).rxId j.val) ∧
  a = o.elim s.mbr.defAct[c] fun k => (memWord s.mem (0x3000 + 0x800 * c.val + 8 * k.val + 4)).extractLsb' 18 11

/-- The action accepts the frame to instance `i` (13 R338). -/
def accepts (a : BitVec 11) (i : Inst) : Bool := !a.getLsbD 10 && a.getLsbD i.val

/-- The bridge keeps frames for the instance (13 R361, R363). -/
abbrev Keeps (s : State) (i : Inst) : Prop :=
  (s.hdr (.mvf i)).en = true ∧ siding s (.mvf i) = false ∧ (s.hdr (.mvf i)).inrst = false ∧ (s.hdr .mbr).en = true ∧
  (s.hdr .mbr).inrst = false

/-- The quotas of 13 R341 allow instance `i` an entry; the pool has 512 (log 36). -/
abbrev Room (s : State) (i : Inst) : Prop :=
  let h (j : Inst) : Nat := (s.inst j).rx.length
  h 0 + h 1 + h 2 + h 3 < 512 ∧ h i < s.mbr.qMax[i] ∧
  (h i < s.mbr.qMin[i] ∨
    (s.mbr.qMin[(0 : Inst)] - h 0) + (s.mbr.qMin[(1 : Inst)] - h 1) + (s.mbr.qMin[(2 : Inst)] - h 2) +
      (s.mbr.qMin[(3 : Inst)] - h 3) < 512 - (h 0 + h 1 + h 2 + h 3))

/-- Every instance that the action accepts the frame to has room, whatever the others take. -/
abbrev RoomForAll (s : State) (a : BitVec 11) : Prop :=
  ∀ i, accepts a i = true → Keeps s i ∧ (s.inst i).rx.length < s.mbr.qMax[i] ∧
    ((allInsts.map fun j => (s.inst j).rx.length + s.mbr.qMin[j]).sum) + 4 ≤ 512

/-- The new entry of an instance (13 R341, Table 13.2). -/
def entryOf (s : State) (c : Chan) (f : RxFrame) (o : Option (Fin 256)) (a : BitVec 11) (dupl mirr : Bool) (i : Inst)
    (arr : Nat) : RxEntry :=
  let h := heardFrame s c f
  { chan := c, urg := a.getLsbD 9, dupl := dupl, mirr := mirr, loss := (s.inst i).lossLatch, late := h.late, id := h.id,
    frame := h.frame, lk := h.lk, seq := s.mbr.seq[c], fidx := BitVec.ofNat 8 (o.elim 0 (·.val)), isDef := o.isNone,
    data := f.data, eprio := BitVec.ofNat 3 ((h.id.extractLsb' 21 3).toNat - (a.extractLsb' 4 3).toNat), arr := arr }

/-- Instance `i` gains the entry and its loss latch clears. -/
def Gains (s t : State) (i : Inst) (e : RxEntry) : Prop :=
  t.inst i = { s.inst i with rx := (s.inst i).rx ++ [e], lossLatch := false }

/-- Instance `i` loses the frame: the loss latch (13 R361). LOST is stated beside it. -/
def Loses (s t : State) (i : Inst) : Prop := t.inst i = { s.inst i with lossLatch := true }

/-- What a hand-over may touch. -/
def handOverParts : List Part := [.jx, .mbr, .mvf, .dbg, .stamp]

/-- The key of an entry in a Sorting chain: EPRIO followed by ID[20:0] (13 R344). -/
def chainKey (e : RxEntry) : Nat := (e.eprio ++ e.id.extractLsb' 0 21).toNat

end Sys2Proof
end

