-- ==== Sys2Proof/Certificates/Slice0/Obligations.lean ====
section
/-! DEFINITION. The statements about the model, for the provers: one definition per obligation, in the order of
OBLIGATIONS.json. A statement about a row of the opcode table says what the row does, where it completes, and its frame. -/

open Sys2Proof Sys2Proof.Machine

/-! ### The step, its answers and its invariants -/

/-- A step takes the command at the front of the queue, first in, first out, and runs exactly it on the state with the queue's
rest. -/
def Obligations.StepRunsFrontCommand : Prop :=
  ∀ (s : State) (c : Instr) (rest : List Instr), s.pending = c :: rest → step s = exec c { s with pending := rest }

/-- 04 R90 with the choice of log 2: a step with nothing waiting is one local lk. Its rising edge samples the pads (03 R76); the lk
offset advances, a level transition takes its next VSEL code, the remote wake on UD0 and a probe run on (06 R150, R162), and a strobe
moves through its half-periods of DIV/2 lk, the next period with the DIV in force (04 R87, R88), and stays high on a held channel (14 R369). A clear now meets no event of the lk
before (00 R14). Nothing else moves. Without a running core clock nothing happens. (Lk 32,767 is the frame boundary: CellTime. What a
held participant has put off starts with the end of the hold: EntryRounds.) -/
def Obligations.IdleStepIsOneLk : Prop :=
  ∀ (s : State) (c : Chan), s.pending = [] →
    (coreRuns s = false → (s.pwr.clockOn = true → entering s = false ∧ (s.pwr.gated = false ∨ s.rst.phase ≠ .run)) →
      step s = .next s) ∧
    (coreRuns s = true → entering s = false → s.clk.ctRun = false ∨ s.clk.lk ≠ 32767 → s.pwr.round = .none →
      (∀ d, (s.chan d).rcvWait = false) → (∀ n, (s.port n).state = .sus → (s.port n).held = false) →
      StepGives s fun t =>
        t.now = s.now + 1 ∧ t.clk.lk = (if s.clk.ctRun then s.clk.lk + 1 else s.clk.lk) ∧ t.clk.frame = s.clk.frame ∧
        t.clk.vcode = s.clk.vsteps.headD s.clk.vcode ∧ t.clk.vsteps = s.clk.vsteps.tail ∧
        t.pins = { s.pins with pads := #v[padSample s, s.pins.pads[0], s.pins.pads[1]] } ∧
        t.upl = (let u : Upl := { s.upl with wakeLk := s.upl.wakeLk - 1 }
          if s.upl.probing = false then u
          else if s.upl.probeLows = 0 then { u with probing := false, connect := false }
          else { u with probeLows := s.upl.probeLows - 1 }) ∧
        (strobeOn s c = false → t.clk.strobe[c] = s.clk.strobe[c]) ∧
        (strobeOn s c = true → 2 ≤ s.clk.divNow[c] →
          let b := s.clk.strobe[c]
          (b.high = true → held s (chanBit c) = true → t.clk.strobe[c] = b) ∧
          (b.high = false ∨ held s (chanBit c) = false →
            (b.ran + 1 < b.half → t.clk.strobe[c] = { b with ran := b.ran + 1 }) ∧
            (b.ran + 1 = b.half →
              t.clk.strobe[c] = if b.high then ⟨false, 0, s.clk.divNow[c] / 2⟩ else ⟨true, 0, b.half⟩))) ∧
        t.clk.cur = s.clk.cur ∧ t.clk.div = s.clk.div ∧ t.clk.divNow = s.clk.divNow ∧
        (t.chan c).bus = (s.chan c).bus ∧ (t.chan c).wire = (s.chan c).wire ∧
        Frame [.now, .clk, .upl, .pwr, .pins, .jx, .free] [] (newLk s) t)

/-- Every command completes in every state: neither a fault nor a refusal, and it leaves the queue alone. -/
def Obligations.EveryCommandCompletes : Prop :=
  ∀ (c : Instr) (s : State), Gives c s fun t => t.pending = s.pending

/-- The filter lists and the retained memory keep their canonical form through every step (13 R335, 05 R131). -/
def Obligations.MemoryStaysCanonical : Prop :=
  ∀ (s t : State), MemOk s → step s = .next t → MemOk t

/-- 13 R340 to R342: through every step the instances hold at most the 512 entries of the pool, the minima sum to at most 512,
and no minimum is above its maximum. (The bound on the pool is log 36's reading of R340.) -/
def Obligations.PoolStaysBounded : Prop :=
  ∀ (s t : State), PoolOk s → step s = .next t → PoolOk t

/-- 03 R59: no step clears a one-time fuse. -/
def Obligations.FusesOnlyRise : Prop :=
  ∀ (s t : State) (w : Fin 6), step s = .next t → t.pins.otp[w] &&& s.pins.otp[w] = s.pins.otp[w]

/-- The state after reset keeps the invariants, waits for nothing, and shows the values that the spec gives for a power-on reset:
RST_CAUSE names POR with reach Whole (05 Table 5.10), QUOTA0 has MIN 0 and MAX 128, the pool is free, and AGELIM is 16 (13
Tables 13.5 and 13.7). The samples of its pads are those of the state itself (03 R76). -/
def Obligations.InvariantsAtReset : Prop :=
  MemOk State.reset ∧ PoolOk State.reset ∧ State.reset.pending = [] ∧ readWord State.reset 0x0340 = 0x00003001 ∧
  readWord State.reset 0x228C = 0x00800000 ∧ readWord State.reset 0x229C = 0x02000200 ∧
  readWord State.reset 0x24F8 = 0x00100000 ∧ readWord State.reset 0x4000 = 0 ∧
  State.reset.pins.pads = Vector.replicate 3 (padSample State.reset)

/-! ### Pages and Block reset (02, 05 §5.7) -/

/-- 02 R37, R39 and Table 2.4: FENCE puts a block of class "full" in Siding and its engine out of work (09 R242, 10
R271, 11 R296); UNFENCE takes it out unless its source bit is set or a fatal fault is present, and the block begins again: a
port enters OFF and applies its settings (09 Table 9.2 row 14), a channel recovers the line (11 R294), the translator grants
(10 R271), the endpoints of an instance in service have SEQ 0 (12 R329). Of the pages, only that of the block takes a change;
the end of a channel's attempt is recorded on the pages of the bridge. Both have no effect on a page of another class.

02 R36: a write of CTL.EN enables or disables a block of class "full" and no other; the value it already holds, and
a page without the bit, take nothing. A port that is disabled is OFF (09 R241), a channel STOPPED; what is enabled outside
Siding begins work as after an UNFENCE. A write during a Block reset counts only after its lk 191 (log 26). -/
def Obligations.FencesAndEnables : Prop :=
  (∀ (s : State) (b : Blk), coreRuns s = true →
     (ctlClass b ≠ .full → Nothing (.fence b) s ∧ Nothing (.unfence b) s) ∧
     (ctlClass b = .full →
       Gives (.fence b) s fun t =>
         (t.hdr b).siding = true ∧ (∀ c, c ≠ b → (t.hdr c).siding = (s.hdr c).siding ∧ (t.hdr c).en = (s.hdr c).en) ∧
         (t.hdr b).en = (s.hdr b).en ∧ ((s.hdr b).inrst = true → (t.hdr b).fenceAfter = true) ∧ FencedWork s t b) ∧
     (ctlClass b = .full → (s.hdr b).siding = false ∨ srcSet s b = true ∨ fatal s = true → Nothing (.unfence b) s) ∧
     (ctlClass b = .full → (s.hdr b).siding = true → srcSet s b = false → fatal s = false →
       Gives (.unfence b) s fun t =>
         (t.hdr b).siding = false ∧ (∀ c, c ≠ b → (t.hdr c).siding = (s.hdr c).siding ∧ (t.hdr c).en = (s.hdr c).en) ∧
         (t.hdr b).en = (s.hdr b).en ∧ (t.hdr b).fenceAfter = false ∧ UnfencedWork s t b)) ∧
  (∀ (s : State) (b : Blk) (en : Bool), Live s b →
     (ctlClass b ≠ .full ∨ (s.hdr b).en = en → Nothing (.ctlEn b en) s) ∧
     (ctlClass b = .full → (s.hdr b).en ≠ en →
       Gives (.ctlEn b en) s fun t =>
         (t.hdr b).en = en ∧ (∀ c, c ≠ b → (t.hdr c).en = (s.hdr c).en ∧ (t.hdr c).siding = (s.hdr c).siding) ∧
         (t.hdr b).siding = (s.hdr b).siding ∧ EnabledWork s t b en)) ∧
  (∀ (s : State) (b : Blk) (en : Bool), coreRuns s = true → (s.hdr b).inrst = true → ctlClass b = .full →
     (s.now < (s.hdr b).rstAt + 192 ∨ (s.hdr b).en = en → Nothing (.ctlEn b en) s) ∧
     ((s.hdr b).rstAt + 192 ≤ s.now → (s.hdr b).en ≠ en →
       Gives (.ctlEn b en) s (Frame [] [] (s.setHdr b { s.hdr b with en := en, enKept := true }))))

/-- 05 R129, Tables 5.6 and 5.7, with 02 R37, R38: a BRST starts a Block reset of a page that has one. The page header
takes its reset values (the Signal box keeps its own), Siding stays, a FENCE of the same write is kept for the end, and
what the block held is lost; an instance keeps its loss latch (the model's reading, log 39). No other page is reset; BRST
during the reset, and on a page without it, has no effect.

05 R129 with 02 R37 and 15 R397: the wrapper of a block opens at lk 255. CTL.EN has its "opt" value unless it was written after
lk 191 (log 26). BLKREC records the block, BLKDONE is raised, and the block is in Siding exactly where a FENCE was kept for it or its
source bit or a fatal fault fences it again; then it starts no work. -/
def Obligations.BlockResets : Prop :=
  (∀ (s : State) (b : Blk) (fence unfence : Bool), coreRuns s = true →
     (ctlClass b = .none → Nothing (.brst b fence unfence) s) ∧
     ((s.hdr b).inrst = true → ctlClass b = .reset ∨ (fence = false ∧ unfence = false) → Nothing (.brst b fence unfence) s) ∧
     (ctlClass b ≠ .none → (s.hdr b).inrst = false →
       Gives (.brst b fence unfence) s fun t =>
         (∀ c, c ≠ b → (t.hdr c).inrst = (s.hdr c).inrst ∧ (t.hdr c).en = (s.hdr c).en) ∧
         (b ≠ .flt → t.hdr b =
           { sev := sevReset b, en := enOpt s b, siding := (s.hdr b).siding, inrst := true,
             fenceAfter := fence && decide (ctlClass b = .full), flr := false, rstAt := s.now }) ∧
         t.pending = s.pending ∧ t.mem = s.mem ∧
         ResetWork s t b)) ∧
  (∀ (s : State) (b : Blk), coreRuns s = true →
     ((s.hdr b).inrst = false → exec (.blockResetOpen b) s = .next s) ∧
     ((s.hdr b).inrst = true → ctlClass b ≠ .none →
       Gives (.blockResetOpen b) s fun t =>
         (t.hdr b).inrst = false ∧ (∀ c, c ≠ b → (t.hdr c).inrst = (s.hdr c).inrst) ∧
         (t.hdr b).en = (if (s.hdr b).enKept then (s.hdr b).en else enOpt s b) ∧
         t.rst = { s.rst with
           blkCount := inc16 s.rst.blkCount, blkFlr := (s.hdr b).flr, blkBlock := BitVec.ofNat 8 (blkPage b) } ∧
         HdrTook s t .rst (oneBit 2) 0 ∧ t.pending = s.pending ∧ t.mem = s.mem ∧
         (ctlClass b = .full → (t.hdr b).siding = ((s.hdr b).fenceAfter || srcSet s b || fatal s)) ∧
         ((t.hdr b).siding = true → KeptWork s t b) ∧
         (b = .pwr → t.clk.vbusy = !(t.hdr .pwr).siding)))

/-- 02 R40–R44: what a write of EVT_EN, EVT_PND, ERR, SEV and PWR_VOTE of a page does. Bits whose level is still active
are set again at once (R41, R42), and a bit that an event of the same lk has set stays set (00 R14).

02 R13, R34, R38 and Table 2.6: a write outside every register changes nothing; during a Block reset of its page a
register other than CTL takes no write.

02 R46: byte k of the event bitmap holds, in bit i, whether page 8k + i has an EVT_PND bit set; pages that do not
exist read 0, and the words EVT_MAP0 and EVT_MAP1 of SYS read the same bits.

02 Tables 2.1 and 2.5, R38: PG_ID of a page is its block code, its KIND and version 1, in a Block reset too; STAT shows
SIDING, INRST and ACTIVE in bits 31 to 29, and ACTIVE is EN without either. -/
def Obligations.PageHeaders : Prop :=
  (∀ (s : State) (b : Blk) (w : Word), Live s b →
     let at_ (off : Nat) : Half := BitVec.ofNat 16 (256 * blkPage b + off)
     let h := s.hdr b
     let becomes (off : Nat) (h' : Hdr) : Prop := Gives (.registerWrite (at_ off) w) s (Frame [] [] (s.setHdr b h'))
     becomes 0x10 { h with evtEn := w } ∧
     becomes 0x14 { h with evtPnd := h.evtPnd &&& ~~~(w &&& ~~~h.evtNew) } ∧
     becomes 0x18 { h with err := h.err &&& ~~~(w &&& ~~~h.errNew) } ∧
     becomes 0x1C { h with sev := if (srcOf b).isSome then w.setWidth 2 else h.sev } ∧
     becomes 0x20 { h with
       delayMax := if hasVote b then w.extractLsb' 8 8 else h.delayMax,
       retain := if hasVote b then w.extractLsb' 2 2 else h.retain,
       park := if hasVote b then w.setWidth 2 else h.park }) ∧
  (∀ (s : State) (a : Half) (w : Word), coreRuns s = true →
     (0x4400 ≤ a.toNat → a.toNat < 0x7F00 → Nothing (.registerWrite a w) s) ∧
     (0x0B00 ≤ a.toNat → a.toNat < 0x1000 → Nothing (.registerWrite a w) s) ∧
     (0x8000 ≤ a.toNat → Nothing (.registerWrite a w) s) ∧
     (∀ b, a.toNat / 256 = blkPage b → (s.hdr b).inrst = true → a.toNat % 256 / 4 ≠ 1 → Nothing (.registerWrite a w) s) ∧
     (∀ b, a.toNat / 256 = blkPage b → (s.hdr b).inrst = false →
       a.toNat % 256 / 4 = 0 ∨ a.toNat % 256 / 4 = 3 ∨ (a.toNat % 256 / 4 = 2 ∧ b ≠ .flt) → Nothing (.registerWrite a w) s)) ∧
  (∀ (s : State) (b : Blk) (p : Fin 64),
     (blkPage b < 64 → ((bitmap s).getD (blkPage b / 8) 0).getLsbD (blkPage b % 8) = decide ((s.hdr b).evtPnd ≠ 0)) ∧
     ((∀ c, blkPage c ≠ p.val) → ((bitmap s).getD (p.val / 8) 0).getLsbD (p.val % 8) = false) ∧
     ((s.hdr .sys).inrst = false →
       (if p.val < 32 then (readWord s 0x0068).getLsbD p.val else (readWord s 0x006C).getLsbD (p.val - 32)) =
         ((bitmap s).getD (p.val / 8) 0).getLsbD (p.val % 8))) ∧
  (∀ (s : State) (b : Blk),
     let at_ (off : Nat) : Half := BitVec.ofNat 16 (256 * blkPage b + off)
     readWord s (at_ 0) = BitVec.ofNat 32 (0x10000 + 256 * kindOf b + blkPage b) ∧
     readWord s (at_ 4) = (if (s.hdr b).en then 1 else 0) ∧
     (readWord s (at_ 8)).getLsbD 31 = siding s b ∧ (readWord s (at_ 8)).getLsbD 30 = (s.hdr b).inrst ∧
     (readWord s (at_ 8)).getLsbD 29 = ((s.hdr b).en && !(s.hdr b).inrst && !siding s b))

/-! ### Fuses, option bytes and the retained memory (03, 05) -/

/-- 03 R62: a word passes where the XOR of its 32 bits is 0, and FPERR reports each failing word. In FUSE0 to FUSE4 every
slot of a failing word acts as code 0 for PU and SF; a failing FUSE5 acts as IOV 0, FOD 1 and LOCK 1. A blank word passes. -/
def Obligations.FuseParity : Prop :=
  ∀ (s : State) (w : Fin 6),
    (fuseOk s w = !(List.range 32).foldl (fun a i => xor a (s.pins.fuse[w].getLsbD i)) false) ∧
    ((fperr s).testBit w.val = !fuseOk s w) ∧
    (s.pins.fuse[w] = 0 → fuseOk s w = true) ∧
    (∀ n : Port, fuseOk s (CPin.pwren n).place.1 = false → puCode s (.pwren n) = 0 ∧ sfCode s (.pwren n) = 0) ∧
    (∀ n : Port, fuseOk s (CPin.dd n).place.1 = false → puCode s (.dd n) = 0 ∧ sfCode s (.dd n) = 0) ∧
    (∀ c : Chan, fuseOk s 1 = false → puCode s (.flow c) = 0 ∧ sfCode s (.flow c) = 0) ∧
    (∀ c : Chan, fuseOk s 3 = false → puCode s (.msgS c) = 0 ∧ sfCode s (.msgS c) = 0) ∧
    (fuseOk s 4 = false →
      puCode s .vsel0 = 0 ∧ sfCode s .vsel0 = 0 ∧ puCode s .vsel1 = 0 ∧ sfCode s .vsel1 = 0 ∧ puCode s .fault = 0 ∧
      sfCode s .fault = 0) ∧
    (fuseOk s 5 = false → iov s = false ∧ fod s = true ∧ fuseLocked s = true)

/-- 03 R69, R70: a PIN_FPROG write is refused for a wrong key, a command that is neither program nor verify, a bit above 191 or
BUSY, a program command also for LOCKED, a low VPP or level P3; the refusal changes FPSTAT alone. A pulse changes one fuse at most,
from 0 to 1, and no sensed word; VALUE is the fuse as it then is, and a programmed bit 190 locks at once.

05 R135, R136: an OPT_PROG write is refused for a wrong key, a command that is neither program nor verify, codeword 1, PBUSY,
OLOCKED, a low VPP, and for a program command at level P3 or where a programmed data bit would have to return to 0; the refusal sets
REFUSED alone. A blank codeword, the data that a codeword holds, and the data of a command that was cut short (R137) are taken. The
end of a command gives RESULT and VDATA and raises PDONE; a program command changes its codeword alone. -/
def Obligations.OneTimeProgramming : Prop :=
  (∀ (s : State) (w : Word) (vpp took : Bool) (bit : Nat) (i : Fin 6), coreRuns s = true →
     let b := w.toNat % 256
     let cmd := w.toNat / 16384 % 4
     let bad : Prop :=
       w.toNat / 65536 ≠ 0x5046 ∨ (cmd ≠ 1 ∧ cmd ≠ 2) ∨ 191 < b ∨ s.pins.fpCmd.isSome = true
     let no : Prop := bad ∨ (cmd = 1 ∧ (fuseLocked s = true ∨ vpp = false ∨ s.clk.cur = 3))
     let refuses (c : Instr) : Prop := Gives c s fun t => t.pins = { s.pins with fpRefused := true } ∧ Frame [.pins] [] s t
     let takes (c : Instr) (x : FpCmd) : Prop :=
       Gives c s fun t =>
         t.pins = { s.pins with fpCmd := some x, fpRefused := false, fpLastBit := b } ∧ Frame [.pins] [] s t
     (no → refuses (.fprogProgram w vpp)) ∧
     (¬ no → takes (.fprogProgram w vpp) (if cmd = 1 then .program b else .verify b)) ∧
     (bad → refuses (.fprogVerify w)) ∧
     (¬ bad → cmd = 2 → takes (.fprogVerify w) (.verify b)) ∧
     (bit < 192 →
       Gives (.fprogProgramDone took) { s with pins := { s.pins with fpCmd := some (.program bit) } } fun t =>
         t.pins.otp[i] = (if took = true ∧ i.val = bit / 32 then s.pins.otp[i] ||| oneBit (bit % 32) else s.pins.otp[i]) ∧
         t.pins.fuse = s.pins.fuse ∧ t.pins.fpCmd = none ∧ t.pins.fpValue = fuseBit t bit ∧
         t.pins.lockProg = (s.pins.lockProg || (fuseBit t bit && decide (bit = 190))) ∧ Frame [.pins] [] s t) ∧
     (Gives .fprogVerifyDone { s with pins := { s.pins with fpCmd := some (.verify bit) } } fun t =>
         t.pins = { s.pins with fpCmd := none, fpValue := fuseBit s bit } ∧ Frame [.pins] [] s t)) ∧
  (∀ (s : State) (w : Word) (vpp : Bool) (cond : CwCond) (cw j : Fin 16) (data : BitVec 64), coreRuns s = true →
     let k : Fin 16 := Fin.ofNat 16 (w.toNat % 16)
     let d : BitVec 64 := s.opt.pdata1 ++ s.opt.pdata0
     let cmd := w.toNat / 16384 % 4
     let bad : Prop :=
       w.toNat / 65536 ≠ 0x4F50 ∨ (cmd ≠ 1 ∧ cmd ≠ 2) ∨ k = 1 ∨ s.opt.cmd.isSome = true ∨ s.opt.olocked = true ∨ vpp = false
     let refuses (c : Instr) : Prop := Gives c s fun t => t.opt = { s.opt with refused := true } ∧ Frame [.opt] [] s t
     let takes (c : Instr) (x : OpCmd) : Prop :=
       Gives c s fun t => t.opt = { s.opt with cmd := some x, refused := false, lastCw := k } ∧ Frame [.opt] [] s t
     let o := s.opt.otp[k]
     (bad ∨ (cmd = 1 ∧ (s.clk.cur = 3 ∨ (o.partialOf = none ∧ o.data &&& ~~~d ≠ 0))) → refuses (.optProgProgram w vpp)) ∧
     (cmd = 1 → ¬ bad → s.clk.cur ≠ 3 → o = {} ∨ (o.partialOf = none ∧ o.data = d) ∨ o.partialOf = some d →
       takes (.optProgProgram w vpp) (.program k d)) ∧
     (bad → refuses (.optProgVerify w vpp)) ∧
     (cmd = 2 → ¬ bad → takes (.optProgVerify w vpp) (.verify k)) ∧
     (Gives (.optProgProgramDone cond) { s with opt := { s.opt with cmd := some (.program cw data) } } fun t =>
         t.opt.cmd = none ∧ t.opt.result = cond ∧ t.opt.otp[cw].cond = cond ∧ t.opt.otp[cw].partialOf = none ∧
         (cond ≠ .uncorrectable →
           t.opt.otp[cw].data = data ∧ t.opt.vdata0 = data.setWidth 32 ∧ t.opt.vdata1 = (data >>> 32).setWidth 32) ∧
         (j ≠ cw → t.opt.otp[j] = s.opt.otp[j]) ∧ t.opt.shadow = s.opt.shadow ∧ HdrTook s t .opt (oneBit 0) 0 ∧
         Frame [.opt, .free] [.opt] s t) ∧
     (Gives .optProgVerifyDone { s with opt := { s.opt with cmd := some (.verify cw) } } fun t =>
         t.opt = { s.opt with
           cmd := none, result := s.opt.otp[cw].cond, vdata0 := s.opt.otp[cw].data.setWidth 32,
           vdata1 := (s.opt.otp[cw].data >>> 32).setWidth 32 } ∧
         HdrTook s t .opt (oneBit 0) 0 ∧ Frame [.opt] [.opt] s t))

/-- 05 R133, with the lock rule 02 R45: bit p of WP write-protects RTM page 0x40 + p; a write to a protected word has no effect and raises
WPVIOL, and any other is stored. WP and LOCK take a write only while LOCK is 0. Every reset of Core or wider reach clears
LOCK; WP is kept until step B1 of a Whole reset clears it. -/
def Obligations.RetainedMemoryProtection : Prop :=
  ∀ (s : State) (w : Fin 256) (val : Word) (a : Nat), coreRuns s = true →
    (s.bkp.wp.getLsbD (w.val / 64) = true →
      Gives (.rtmWrite w val) s fun t => HdrTook s t .bkp (oneBit 0) 0 ∧ Frame [] [.bkp] s t) ∧
    (s.bkp.wp.getLsbD (w.val / 64) = false → Memory.wf s.mem = true →
      Gives (.rtmWrite w val) s fun t =>
        memWord t.mem (0x4000 + 4 * w.val) = val ∧
        (a < 0x4000 + 4 * w.val ∨ 0x4004 + 4 * w.val ≤ a → memGet t.mem a = memGet s.mem a) ∧
        Frame [.mem, .parBad] [] s t) ∧
    ((s.hdr .bkp).inrst = false → s.bkp.lock = true → Nothing (.registerWrite 0x0580 val) s) ∧
    ((s.hdr .bkp).inrst = false → s.bkp.lock = false →
      Gives (.registerWrite 0x0580 val) s fun t =>
        t.bkp = { s.bkp with wp := val.setWidth 4, lock := val.getLsbD 8 } ∧ Frame [.bkp] [] s t) ∧
    Gives (.pin false) s (fun t => t.bkp = { s.bkp with lock := false }) ∧
    (s.rst.swrKey = true → (s.ep .hub).stage = .none →
      Gives .swr s fun t => t.bkp = { s.bkp with lock := false }) ∧
    Gives .por s (fun t => t.bkp = { s.bkp with lock := false }) ∧
    (let u : State := { s with
      rst := { s.rst with phase := .b1, porOn := false, borCoreOn := false, borIoOn := false },
      pins := { s.pins with railAon := true, railG := true } }
     Gives .fuseSense u fun t => t.bkp.wp = 0 ∧ t.bkp.lock = false)

/-- 05 R132: a read of a retained-memory word whose parity fails returns the stored data, as any other read does, sets RTMPAR,
records the word and counts it; a write gives the word correct parity. -/
def Obligations.RetainedMemoryParity : Prop :=
  ∀ (s : State) (w : Fin 256) (val : Word) (ok : Bool), coreRuns s = true →
    readWord s (BitVec.ofNat 16 (0x4000 + 4 * w.val)) = memWord s.mem (0x4000 + 4 * w.val) ∧
    (ok = true → 0x4000 + 4 * w.val ∉ s.parBad → Nothing (.rtmRead w ok) s) ∧
    (ok = false ∨ 0x4000 + 4 * w.val ∈ s.parBad →
      Gives (.rtmRead w ok) s fun t =>
        readWord t (BitVec.ofNat 16 (0x4000 + 4 * w.val)) = memWord s.mem (0x4000 + 4 * w.val) ∧
        t.bkp = { s.bkp with errCount := satInc 0xFF s.bkp.errCount, errWord := BitVec.ofNat 8 w.val } ∧
        0x4000 + 4 * w.val ∈ t.parBad ∧ HdrTook s t .bkp 0 (oneBit 0) ∧ Frame [.bkp, .parBad] [.bkp] s t) ∧
    (s.bkp.wp.getLsbD (w.val / 64) = false →
      Gives (.rtmWrite w val) s fun t => 0x4000 + 4 * w.val ∉ t.parBad)

/-! ### The clock (04) -/

/-- 04 R90, with 05 R123, 07 R191, R192, 09 R232, R234 and 13 R345: local lk 0. Cell time advances to the next frame at lk 0,
the watchdog counts the frame, the Timetable's counts of the frame move to TTB_USED, and every reservation takes its
value; nothing outside the parts named changes. (What a held participant has put off is EntryRounds' matter.)

04 R91: a valid FRAME_START sets cell time the first time, confirms it where it arrives in its lk of its frame, and
otherwise slips it: SLIPCNT, SLIPDELTA and CTSLIP. TIER and CTADJ come into force with it. 07 R175: an ENABLED Full port gets it
whole, or its masked header while the port is being suspended or comes from a resume.

04 R93, R94: a frame without a valid FRAME_START by lk 1,023 raises FSMISS and counts it; it raises nothing where one
was seen, or before the first valid one. CAP latches cell time in CLK_CTSNAP. -/
def Obligations.CellTime : Prop :=
  (∀ (s : State) (k : Fin 9) (n : Port), coreRuns s = true → s.clk.ctRun = true → (∀ d, (s.chan d).rcvWait = false) →
     (∀ m, (s.port m).state = .sus → (s.port m).held = false) →
     Gives .localLk0 s fun t =>
       t.clk.frame = s.clk.frame + 1 ∧ t.clk.lk = 0 ∧ t.clk.fsSeen = false ∧ t.clk.fsChecked = false ∧
       t.clk.cur = s.clk.cur ∧ t.clk.div = s.clk.div ∧
       t.rst = { s.rst with wdgFrames := inc16 s.rst.wdgFrames } ∧
       t.now = s.now + (32768 - s.clk.lk.toNat) ∧
       t.upl.wakeLk = s.upl.wakeLk - (32768 - s.clk.lk.toNat) ∧
       t.ttb.lastSched = s.ttb.used.toList.sum ∧ t.ttb.lastOther = s.ttb.other ∧ t.ttb.other = 0 ∧ t.ttb.used[k] = 0 ∧
       t.ttb.res = s.ttb.res ∧
       (targetOut s k = true → t.ttb.now[k] = 0) ∧
       (targetOut s k = false → s.ttb.out[k] = false → s.ttb.ret[k] = false → t.ttb.now[k] = s.ttb.res[k]) ∧
       ((∀ j : Fin 9, s.ttb.ret[j] = false) → HdrTook (newLk s) t .ttb (oneBit 0) 0) ∧
       t.port n = { s.port n with sinceFs := (s.port n).sinceFs.map (· + 1), noFs := false } ∧
       t.xport n = { s.xport n with fsWait := false } ∧
       Frame [.clk, .rst, .ttb, .ports, .xlt, .mvf, .pwr, .now, .pins, .upl, .jx, .free] [.ttb] (newLk s) t) ∧
  (∀ (s : State) (f : BitVec 16) (n : Port), coreRuns s = true → s.pwr.round ≠ .preadySent →
     let e := 8 * (s.clk.tier - 1) + s.clk.adj
     let loaded : Clk := { s.clk with
       tierNow := s.clk.tier, adjNow := s.clk.adj, ctValid := true, fsSeen := true, frame := f, lk := BitVec.ofNat 15 e }
     let kept : List Part := [.clk, .upl, .ports, .xlt, .sent]
     (s.clk.ctValid = false →
       Gives (.frameStart f) s fun t => t.clk = loaded ∧ t.upl.fsCounted = true ∧ Frame kept [] s t) ∧
     (s.clk.ctValid = true → s.clk.frame = f → s.clk.lk.toNat = e →
       Gives (.frameStart f) s fun t =>
         t.clk = { s.clk with tierNow := s.clk.tier, adjNow := s.clk.adj, fsSeen := true } ∧ Frame kept [] s t) ∧
     (s.clk.ctValid = true → s.clk.frame ≠ f ∨ s.clk.lk.toNat ≠ e →
       Gives (.frameStart f) s fun t =>
         t.clk = { loaded with
           slipCnt := inc16 s.clk.slipCnt,
           slipDelta := min 32767 (max (-32767) ((s.clk.lk.toNat : Int) - (e : Int))) } ∧
         HdrTook s t .clk (oneBit 2) 0 ∧ Frame kept [.clk] s t) ∧
     Gives (.frameStart f) s fun t =>
       ((s.port n).state = .ena → (s.port n).full = true →
         t.sent[n] = some (if (s.port n).suspReq || (s.port n).noFs then .masked (fstartPkt f).header
           else .repeated (fstartPkt f)) ∧
         ((s.port n).suspReq = false → (s.port n).noFs = false → (t.port n).sinceFs = some 0)) ∧
       ((s.port n).state ≠ .ena → t.sent[n] = none ∧ t.port n = s.port n)) ∧
  (∀ s : State, coreRuns s = true →
     (s.clk.ctValid = true → s.clk.fsSeen = false → s.clk.fsChecked = false → s.pwr.noMiss = false →
       Gives .fsmiss s fun t =>
         (s.pwr.round = .none → t.clk = { s.clk with fsMissCnt := inc16 s.clk.fsMissCnt, fsChecked := true }) ∧
         t.clk.fsMissCnt = inc16 s.clk.fsMissCnt ∧ HdrTook s t .clk (oneBit 3) 0 ∧ Frame [.clk] [.clk] s t) ∧
     (s.clk.ctValid = false ∨ s.clk.fsSeen = true → exec .fsmiss s = .next s) ∧
     (Gives .clkCtcapCap s fun t =>
       t.clk.snapFrame = s.clk.frame ∧ t.clk.snapLk = s.clk.lk ∧ t.clk.frame = s.clk.frame ∧ t.clk.lk = s.clk.lk ∧
       Frame [.clk] [] s t))

/-- 04 R99, R100, R102 with 15 R396: a level request is refused while VBUSY is 1 or the power controller is fenced; a
request whose voltage code is that of CUR is done at once; any other sets VBUSY, and its end sets CUR (LVLDONE) or keeps
it (PGTO). PGLOST is raised only with VBUSY 0, and once in each run of low reads. Its refusal during a Block reset of PWR is the
model's choice (log 28). 14 R376: between the agreement of a round and the service that follows no transition starts.

04 R85, R88: a write of CLK_DIVx that is odd or outside 10 to 4,096 is ignored and raises DIVREJ; any other is taken,
and comes into force at once only while the channel is disabled. The upstream trims come into force where the link carries
no transaction. -/
def Obligations.LevelsDividersAndTrims : Prop :=
  (∀ (s : State) (l : Fin 4), coreRuns s = true → s.pwr.round = .none → s.pwr.exit = .none → s.pwr.low = none →
     (s.clk.vbusy = true ∨ siding s .pwr = true ∨ (s.hdr .pwr).inrst = true →
       Gives (.clkLvlReq l) s fun t => HdrTook s t .clk (oneBit 1) 0 ∧ Frame [] [.clk] s t) ∧
     (s.clk.vbusy = false → siding s .pwr = false → (s.hdr .pwr).inrst = false →
       (levelCode l = levelCode s.clk.cur →
         Gives (.clkLvlReq l) s fun t =>
           t.clk = { s.clk with req := l, cur := l } ∧ HdrTook s t .clk (oneBit 0) 0 ∧ Frame [.clk] [.clk] s t) ∧
       (levelCode l ≠ levelCode s.clk.cur →
         Gives (.clkLvlReq l) s fun t =>
           t.clk.req = l ∧ t.clk.cur = s.clk.cur ∧ t.clk.vbusy = true ∧ t.clk.vphase = .vmin l ∧
           (t.clk.vcode :: t.clk.vsteps).getLast? = some (if s.clk.vcode = levelCode l then t.clk.vcode else levelCode l) ∧
           (s.clk.vcode = 1 ∧ levelCode l = 2 ∨ s.clk.vcode = 2 ∧ levelCode l = 1 → t.clk.vcode = 0) ∧
           Frame [.clk] [] s t)) ∧
     (Gives .vminWaitEnd { s with clk := { s.clk with vphase := .vmin l } } fun t =>
         t.clk = { s.clk with vcode := s.clk.vsteps.getLastD s.clk.vcode, vsteps := [], vphase := .watch l } ∧
         Frame [.clk] [] s t) ∧
     (∀ late, Gives (.pgoodQualification late) { s with clk := { s.clk with vphase := .watch l } } fun t =>
         t.clk = { s.clk with cur := l, vbusy := false, vphase := .idle, pgLow := false } ∧ HdrTook s t .clk (oneBit 0) 0 ∧
         Frame [.clk] [.clk] s t) ∧
     (∀ late, s.clk.vphase = .start →
       Gives (.pgoodQualification late) s fun t =>
         t.clk = { s.clk with vbusy := false, vphase := .idle, pgLow := false } ∧ Frame [.clk] [] s t) ∧
     (s.clk.vphase ≠ .idle →
       Gives .pgto s fun t =>
         t.clk.cur = s.clk.cur ∧ t.clk.vbusy = false ∧ t.clk.vphase = .idle ∧
         t.clk.vcode = s.clk.vsteps.getLastD s.clk.vcode ∧ HdrTook s t .clk 0 (oneBit 0) ∧ Frame [.clk] [.clk] s t) ∧
     (∀ high, s.clk.vbusy = false → siding s .pwr = false → (s.hdr .pwr).inrst = false →
       (high = true ∨ s.clk.pgLow = false →
         Gives (.pglost high) s fun t =>
           t.clk = { s.clk with pgLow := true } ∧ HdrTook s t .clk 0 (oneBit 1) ∧ Frame [.clk] [.clk] s t) ∧
       (high = false → s.clk.pgLow = true → Nothing (.pglost high) s)) ∧
     (∀ high, s.clk.vbusy = true ∨ siding s .pwr = true ∨ (s.hdr .pwr).inrst = true →
       Gives (.pglost high) s fun t =>
         t.clk = { s.clk with pgLow := if high then false else s.clk.pgLow } ∧ Frame [.clk] [] s t)) ∧
  (∀ (s : State) (l : Fin 4), coreRuns s = true →
     s.pwr.round = .preadySent ∨ (s.pwr.round = .none ∧ (s.pwr.low.isSome = true ∨ s.pwr.exit ≠ .none)) →
     Nothing (.clkLvlReq l) s) ∧
  (∀ (s : State) (c : Chan) (w : Word), coreRuns s = true →
     let v := w.toNat % 8192
     let now := if (s.hdr (.jx c)).en then s.clk.divNow[c] else v
     (v % 2 = 1 ∨ v < 10 ∨ 4096 < v →
       Gives (.clkDivWrite c w) s fun t => HdrTook s t .clk (oneBit 4) 0 ∧ Frame [] [.clk] s t) ∧
     (v % 2 = 0 → 10 ≤ v → v ≤ 4096 →
       Gives (.clkDivWrite c w) s fun t =>
         t.clk.div[c] = v ∧ t.clk.divNow[c] = now ∧
         t.clk.strobe[c] = (if (s.hdr (.jx c)).en then s.clk.strobe[c] else ⟨true, 0, v / 2⟩) ∧
         (∀ d, d ≠ c → t.clk.div[d] = s.clk.div[d] ∧ t.clk.divNow[d] = s.clk.divNow[d] ∧
           t.clk.strobe[d] = s.clk.strobe[d]) ∧
         t.clk.frame = s.clk.frame ∧ t.clk.cur = s.clk.cur ∧ Frame [.clk] [] s t) ∧
     (s.upl.txn.target = .none →
       Gives .udTrimApply s fun t =>
         t.clk.ud0Now = s.clk.ud0 ∧ t.clk.ud1Now = s.clk.ud1 ∧ t.clk.ud0 = s.clk.ud0 ∧ t.clk.ud1 = s.clk.ud1 ∧
         t.clk.frame = s.clk.frame ∧ t.clk.cur = s.clk.cur ∧ Frame [.clk] [] s t) ∧
     (s.upl.txn.target ≠ .none → exec .udTrimApply s = .next s))

/-! ### Reset and bring-up (05, 03 §3.5) -/

/-- 05 Table 5.1, R107, R116, R119, R122: each source that asserts in normal running starts a reset of its own reach at
that reach's entry step, and RST_CAUSE names it as the first. No fuse or option byte is being programmed. A low of RST_N that began
while the hub drove it is no source (R110).

05 R119, R121, R122: each source that can assert while a reset is in progress widens its reach, joins its record, and puts
bring-up back to its own entry step; one that asserts in B1 leaves bring-up there. The watchdog, SWR and DBG_RESET belong to the
core, which is in reset then. -/
def Obligations.ResetSources : Prop :=
  (∀ (s : State) (kind : LkpKind) (block : Byte), s.rst.phase = .run → s.pins.fpCmd = none → s.opt.cmd = none →
     let begins (c : Instr) (code : Nat) (src : Source) (reach : Reach) (step : RstPhase) : Prop :=
       Gives c s fun t =>
         ResetBegan s t ∧ t.rst.phase = step ∧ t.rst.reach = reach ∧ t.rst.sources = [src] ∧
         t.rst.causeFirst = BitVec.ofNat 3 code ∧ t.rst.causeReach = reachCode reach ∧
         t.rst.causeSrc = s.rst.causeSrc ||| BitVec.ofNat 8 (1 <<< code)
     begins .por 0 .por .whole .b1 ∧
     begins (.bor .core) 1 .bor .whole .b1 ∧
     begins (.bor .ioG) 1 .bor .whole .b1 ∧
     begins (.pin false) 2 .pin .device .b2 ∧ exec (.pin true) s = .next s ∧
     (coreRuns s = true → s.rst.wdgEn = true → s.rst.wdgPeriod ≤ s.rst.wdgFrames → 1 ≤ s.rst.wdgFrames →
       begins .wdg 3 .wdg .device .b2) ∧
     (s.clk.armed = true → begins .clf 4 .clf .device .b2) ∧
     begins (.lkp kind block) 5 .lkp .device .b2 ∧
     (coreRuns s = true → s.rst.swrKey = true → (s.ep .hub).stage = .none → begins .swr 6 .swr .core .b2) ∧
     (coreRuns s = true → s.rst.dbgHeld = true → (s.ep .hub).stage = .none → begins .dbg 7 .dbg .core .b2)) ∧
  (∀ (s : State) (kind : LkpKind) (block : Byte), s.rst.phase ≠ .run →
     let joins (c : Instr) (code : Nat) (src : Source) (reach : Reach) : Prop :=
       Gives c s fun t =>
         t.rst.phase = (if s.rst.phase = .b1 ∨ reach = .whole then .b1 else .b2) ∧
         t.rst.reach = (if (reachCode s.rst.reach).toNat < (reachCode reach).toNat then reach else s.rst.reach) ∧
         t.rst.causeFirst = s.rst.causeFirst ∧ t.rst.causeReach = reachCode t.rst.reach ∧
         t.rst.causeSrc = s.rst.causeSrc ||| BitVec.ofNat 8 (1 <<< code) ∧
         t.rst.sources.contains src = true ∧ (∀ x ∈ s.rst.sources, x ∈ t.rst.sources) ∧ t.mem = s.mem ∧ inService t = false
     joins .por 0 .por .whole ∧
     joins (.bor .core) 1 .bor .whole ∧
     joins (.bor .ioG) 1 .bor .whole ∧
     joins (.pin false) 2 .pin .device ∧
     (s.clk.armed = true → joins .clf 4 .clf .device) ∧
     joins (.lkp kind block) 5 .lkp .device ∧ (Gives (.lkp kind block) s fun t => t.rst.lkpBlock = block) ∧
     exec .wdg s = .next s ∧ exec .swr s = .next s ∧ exec .dbg s = .next s)

/-- 05 Table 5.4, R111, R116, R120, 03 R61: rails and level sources come and go, B1 clears AON and senses the fuse map
once POR and BOR are released and the rails are valid, and before that the pins whose rail has come; the stretch ends once every
level source is released, and B3 arms the clock-loss detector.

05 Table 5.5, R117: B4 releases the groups in order. Group 1 loads the options and starts the power controller from its code (04
R103), group 2 waits for the memories and for VBUSY 0, group 3 applies the settings of each enabled port (09 R218), group 4 starts
line recovery of each enabled channel (11 R294); at group 5 the hub runs, cell time starts at 0 : 0, and RST_COUNT counts a reset of
Device or Core reach. -/
def Obligations.BringUp : Prop :=
  (∀ s : State,
     (∀ r, Gives (.railValid r) s fun t =>
       t.pins = (setRail s r true).pins ∧ t.rst.phase = s.rst.phase ∧ Frame [.pins, .rst] [] s t) ∧
     Gives .porRelease s (fun t => t.rst = { s.rst with porOn := false } ∧ t.pins = { s.pins with railAon := true } ∧
       Frame [.pins, .rst] [] s t) ∧
     Gives (.borRelease .core) s (fun t => t.rst = { s.rst with borCoreOn := false } ∧
       t.pins = { s.pins with railCore := true } ∧ Frame [.pins, .rst] [] s t) ∧
     Gives (.borRelease .ioG) s (fun t => t.rst.borIoOn = false ∧
       t.rst.rstDriven = (s.rst.rstDriven || decide (s.rst.phase = .b1 ∨ s.rst.phase = .b2)) ∧
       t.pins = { s.pins with railG := true } ∧ Frame [.pins, .rst] [] s t) ∧
     (s.rst.clfOn = true →
       Gives .clfRelease s fun t => t.rst = { s.rst with clfOn := false } ∧ t.pwr.clockOn = true) ∧
     (s.rst.phase = .b1 → s.rst.porOn = false → s.pins.railAon = true →
       (s.rst.borCoreOn = false → s.rst.borIoOn = false → s.pins.railG = true →
         Gives .fuseSense s fun t =>
           t.rst.phase = .b2 ∧ t.pins.fuse = s.pins.otp ∧ t.pins.sensedL = true ∧ t.pins.sensedG = true ∧
           t.pins.gHiZ = false ∧ t.bkp = {} ∧ t.rst.count = 0 ∧ t.rst.rstDriven = true ∧
           t.rst.causeReach = 3 ∧ t.mem = s.mem ∧ t.pending = s.pending) ∧
       (s.rst.borCoreOn = true ∨ s.rst.borIoOn = true ∨ s.pins.railG = false →
         Gives .fuseSense s fun t =>
           t.pins.sensedL = (s.pins.sensedL || s.pins.porHiZ) ∧
           t.pins.sensedG = (s.pins.sensedG || (s.pins.railG && (s.pins.porHiZ || s.pins.gHiZ))) ∧
           Frame [.pins] [] s t)) ∧
     (s.rst.phase ≠ .b1 ∨ s.rst.porOn = true ∨ s.pins.railAon = false → exec .fuseSense s = .next s) ∧
     (s.rst.phase = .b2 → s.rst.porOn = false → s.rst.borCoreOn = false → s.rst.borIoOn = false →
       s.rst.clfOn = false → s.pins.railG = true →
       Gives .stretchEnd s fun t =>
         t.rst = { s.rst with phase := .b2Released, rstDriven := false } ∧ Frame [.rst] [] s t) ∧
     (s.rst.phase = .b2Released →
       Gives .resetPhaseEnd s fun t => t.rst = { s.rst with phase := .b3 } ∧ Frame [.rst] [] s t) ∧
     (s.rst.phase = .b3 → s.pwr.clockOn = true →
       Gives .edgeWaitEnd s fun t =>
         t.rst = { s.rst with phase := .b4, group := 0 } ∧ t.clk.armed = true ∧ Frame [.rst, .clk] [] s t)) ∧
  (∀ (s : State) (a len : Nat) (n : Port) (c : Chan), s.rst.phase = .b4 →
     (∀ pads, s.rst.group = 0 →
       Gives (.group1Release pads) s fun t =>
         t.rst.group = 1 ∧ t.rst.phase = .b4 ∧ t.opt.loaded = true ∧ t.clk.vbusy = true ∧ t.clk.vphase = .start ∧
         (s.rst.reach = .whole → t.clk.vcode = vselStart s pads ∧ t.clk.cur = codeLevelOf t.clk.vcode) ∧
         (s.rst.reach ≠ .whole → t.clk.vcode = s.clk.vcode ∧ t.clk.cur = curFor s.clk.cur s.clk.vcode) ∧
         t.mem = s.mem ∧ t.bkp = s.bkp ∧ t.pending = s.pending) ∧
     (s.rst.group = 1 → s.rst.memInit = false →
       Gives .memoryInitialisationEnd s fun t =>
         t.rst = { s.rst with memInit := true } ∧
         (0x3000 ≤ a → a < 0x4000 → memGet t.mem a = 0) ∧
         (s.rst.reach = .whole → 0x4000 ≤ a → a < 0x4400 → memGet t.mem a = 0) ∧
         (Memory.wf s.mem = true → s.rst.reach ≠ .whole → 0x4000 ≤ a → memGet t.mem a = memGet s.mem a) ∧
         Frame [.rst, .mem, .parBad] [] s t) ∧
     (s.rst.group = 1 → s.rst.memInit = true → s.clk.vbusy = false →
       Gives .group2Release s fun t =>
         t.rst = { s.rst with group := 2 } ∧ t.upl = { s.upl with connect := !s.rst.keepLink } ∧
         Frame [.rst, .upl] [] s t) ∧
     (s.rst.group = 2 →
       Gives .group3Release s fun t =>
         t.rst = { s.rst with group := 3 } ∧
         ((s.hdr (.prt n)).en = false → t.port n = s.port n) ∧
         ((s.hdr (.prt n)).en = true → (t.port n).powerNow = (s.port n).power ∧ (t.port n).speedNow = (s.port n).speed ∧
           (t.port n).settleNow = (s.port n).settle) ∧
         ((∀ m, (s.hdr (.prt m)).en = false) → Frame [.rst] [] s t)) ∧
     (s.rst.group = 3 → s.pwr.round = .none →
       Gives .group4Release s fun t =>
         t.rst = { s.rst with group := 4 } ∧
         (active s (.jx c) = true → held s (chanBit c) = false → (t.chan c).bus = .recovery) ∧
         (active s (.jx c) = false → t.chan c = s.chan c) ∧
         ((∀ d, active s (.jx d) = false) → Frame [.rst] [] s t)) ∧
     (s.rst.group = 4 →
       Gives (.group5Release len) s fun t =>
         t.rst.phase = .run ∧ t.rst.group = 5 ∧ t.rst.bringup = min 0xFFFF len ∧
         t.rst.count = (if s.rst.reach = .whole then s.rst.count else satInc 0xFFFF s.rst.count) ∧
         t.clk.frame = 0 ∧ t.clk.lk = 0 ∧ t.clk.ctRun = true ∧ t.aon.armed = false ∧ t.aon.latched = 0 ∧
         Frame [.rst, .clk, .mvf, .aon, .pins, .jx, .free] [] s t))

/-- 05 R124: a good kick is 0x5A and then 0xA5; any other write is a bad kick, which asserts WDG while BADWARN is 0 and
otherwise raises BADKICK and clears ARMED; kicks while EN is 0 have no effect. -/
def Obligations.WatchdogKicks : Prop :=
  ∀ (s : State) (v : Byte), Live s .rst →
    (s.rst.wdgEn = false → Nothing .wdgKickFirst s ∧ Nothing .wdgKickSecond s) ∧
    (s.rst.wdgEn = true → s.rst.wdgArmed = false →
      Gives .wdgKickFirst s fun t => t.rst = { s.rst with wdgArmed := true } ∧ Frame [.rst] [] s t) ∧
    (s.rst.wdgEn = true → s.rst.wdgArmed = true →
      Gives .wdgKickSecond s fun t =>
        t.rst = { s.rst with wdgArmed := false, wdgFrames := 0, wdgWarned := false } ∧ Frame [.rst] [] s t) ∧
    (s.rst.wdgEn = true →
      (v = 0xA5 ∧ s.rst.wdgArmed = false) ∨ (v ≠ 0x5A ∧ v ≠ 0xA5) ∨ (v = 0x5A ∧ s.rst.wdgArmed = true) →
      (s.rst.wdgBadwarn = true →
        Gives (.registerWrite 0x0358 (v.setWidth 32)) s fun t =>
          t.rst = { s.rst with wdgArmed := false } ∧ HdrTook s t .rst (oneBit 1) 0 ∧ Frame [.rst] [.rst] s t) ∧
      (s.rst.wdgBadwarn = false →
        Gives (.registerWrite 0x0358 (v.setWidth 32)) s fun t =>
          t.rst.phase = .b2 ∧ t.rst.reach = .device ∧ t.rst.sources = [.wdg]))

/-- 05 R123, R127, 08 R214: the warning of the watchdog, the SWR key (any other key has no effect), and a DBG_RESET, which
takes the key 0xD00D and nothing else. -/
def Obligations.ResetRequests : Prop :=
  ∀ (s : State) (key : Half), coreRuns s = true →
    (s.rst.wdgWarn ≠ 0 → s.rst.wdgWarned = false → s.rst.wdgFrames = wdgLimit s - s.rst.wdgWarn →
      Gives .wdgwarn s fun t =>
        t.rst = { s.rst with wdgWarned := true } ∧ HdrTook s t .rst (oneBit 0) 0 ∧ Frame [.rst] [.rst] s t) ∧
    Gives (.rstSwr 0x5357) s (fun t => t.rst = { s.rst with swrKey := true } ∧ Frame [.rst] [] s t) ∧
    (key ≠ 0x5357 → Nothing (.rstSwr key) s) ∧
    (s.hub.conf = true → (optByte s 6).getLsbD 1 = false →
      Gives (.dbgReset 0x40 0xD00D 0 0) s fun t =>
        t.rst = { s.rst with dbgHeld := true } ∧ t.ep .hub = { s.ep .hub with busy := false } ∧
        t.ep .bridge = s.ep .bridge ∧ Frame [.rst, .ep0] [] s t) ∧
    (s.hub.conf = true → key ≠ 0xD00D →
      Gives (.dbgReset 0x40 key 0 0) s fun t =>
        (t.ep .hub).stage = .halted ∧ t.hub.badReason = 6 ∧ HdrTook s t .hub (oneBit 4 ||| oneBit 5) 0 ∧
        Frame [.hub, .ep0] [.hub] s t)

/-! ### The upstream link and the Junction (06, 07) -/

/-- 06 R148–R160, R427 and Table 6.5: the upstream port from its reset to LINKUP, and its probe. Each step is taken only from
the phase before it; only a port whose connect drive is on senses a reset (R149). The width is x2 where the confirmation was sampled
and X1ONLY in force did not withhold the offer. A probe goes on while the host drives the lane low (R150).

08 R215, R195 and 07 §7.10: an upstream port reset while LINKUP is 1 is a link reset. It forgets addresses,
configurations, transfers, tags, routes, error counts and SEQ, drops a held SWR, DBG_RESET or power request, and resets no
block: ports, channels, instances, memories and the other registers stay. What it keeps of the endpoints is the model's
reading (log 29).

06 R160, R162, 09 R236, R237: the upstream port suspends where a FRAME_START has been counted; when it resumes, every SUSPENDED
port with SELSUSP 0 resumes and no other, at once or with the end of its hold (14 R369); the hub drives its remote wake for 512 lk
where a port's wake is wanted. -/
def Obligations.LinkTrainingAndReset : Prop :=
  (∀ (s : State) (conf : Bool) (lows : Nat), groupRuns s 2 = true →
     let upl (t : State) (u : Upl) : Prop := t.upl = u ∧ Frame [.upl] [] s t
     (s.upl.linkup = false → s.upl.connect = true →
       Gives .upstreamPortReset s fun t => upl t
         { s.upl with
           phase := .resetting, connect := true, linkup := false, x2 := false, x1Now := s.upl.x1Only, suspended := false,
           probing := false, probeLows := 0, fsCounted := false, wakeWanted := false, wakeLk := 0, txn := {} }) ∧
     (s.upl.linkup = true ∨ s.upl.connect = false → exec .upstreamPortReset s = .next s) ∧
     (s.upl.linkup = false ∨ s.upl.connect = false → exec .linkReset s = .next s) ∧
     (s.upl.phase = .resetting → Gives .chirp s fun t => upl t { s.upl with phase := .chirped, connect := false }) ∧
     (s.upl.phase = .chirped →
       Gives .chirpAnswerAccepted s (fun t => upl t { s.upl with phase := .training }) ∧
       Gives .chirpAnswerTimeout s (fun t => upl t { s.upl with phase := .unconnected, connect := false })) ∧
     (s.upl.phase = .unconnected → Gives .connectRetry s fun t => upl t { s.upl with connect := true }) ∧
     (s.upl.phase = .training →
       Gives (.widthFixed conf) s fun t => upl t { s.upl with phase := .trained, x2 := conf && !s.upl.x1Now }) ∧
     (s.upl.phase = .trained →
       Gives .linkup s fun t =>
         t.upl = { s.upl with phase := .up, linkup := true } ∧ HdrTook s t .upl (oneBit 0) 0 ∧ Frame [.upl] [.upl] s t) ∧
     (s.upl.linkup = true →
       Gives (.probe lows) s fun t => upl t { s.upl with probing := true, probeLows := lows, connect := true }) ∧
     (s.upl.phase ≠ .trained → exec .linkup s = .next s) ∧
     (s.upl.phase ≠ .training → exec (.widthFixed conf) s = .next s) ∧
     (s.upl.phase ≠ .chirped →
       exec .chirpAnswerAccepted s = .next s ∧ exec .chirpAnswerTimeout s = .next s) ∧
     (s.upl.phase ≠ .resetting → exec .chirp s = .next s) ∧ (s.upl.phase ≠ .unconnected → exec .connectRetry s = .next s)) ∧
  (∀ (s : State) (a : Fin 128) (k : Fin 12), groupRuns s 2 = true → s.upl.linkup = true → s.upl.connect = true →
     Gives .linkReset s fun t =>
       t.upl.linkup = false ∧ t.upl.phase = .resetting ∧ t.upl.hcrcCnt = 0 ∧ t.upl.dupCnt = 0 ∧ t.upl.txn = {} ∧
       t.upl.x1Only = s.upl.x1Only ∧ t.upl.x1Now = s.upl.x1Now ∧
       t.hub.addr = 0 ∧ t.hub.addrOld = [] ∧ t.hub.conf = false ∧ t.hub.brPres = false ∧ t.hub.brConf = false ∧
       t.hub.brAddr = 0 ∧ t.hub.tags = Vector.replicate 8 {} ∧
       t.hub.routes[a] = (if a = 0 then 8 else 0xF) ∧ t.hub.stallCnt = s.hub.stallCnt ∧ t.hub.ep1All = s.hub.ep1All ∧
       t.ep .hub = {} ∧ t.ep .bridge = {} ∧ (t.bep k).seq = false ∧ (t.bep k).halted = (s.bep k).halted ∧
       t.rst = { s.rst with swrKey := false, dbgHeld := false } ∧ t.pwr.reqHeld = none ∧
       HdrTook s t .upl (oneBit 1) 0 ∧ Frame [.upl, .hub, .ep0, .beps, .rst, .pwr] [.upl] s t) ∧
  (∀ (s : State) (quiet : Byte) (n : Port), coreRuns s = true →
     (s.upl.linkup = true → s.upl.fsCounted = true → s.upl.suspended = false →
       Gives .upstreamSuspend s fun t => t.upl = { s.upl with suspended := true } ∧ Frame [.upl] [] s t) ∧
     (s.upl.fsCounted = false → exec .upstreamSuspend s = .next s) ∧
     (s.upl.suspended = true →
       Gives (.upstreamResume quiet) s fun t =>
         t.upl = { s.upl with suspended := false, wakeWanted := false, wakeLk := 0 } ∧
         t.port n = (if (s.port n).state = .sus ∧ (s.port n).selSusp = false then
           (if held s (portBit n) then { s.port n with held := true }
            else { entered s (s.port n) .rsm with drive := if quiet.getLsbD n.val then .quiet else .resume, held := false })
           else s.port n) ∧
         Frame [.upl, .ports] [] s t) ∧
     (s.upl.suspended = true → s.upl.wakeWanted = true →
       Gives .hubRemoteWake s fun t =>
         t.upl = { s.upl with wakeWanted := false, wakeLk := 512 } ∧ Frame [.upl] [] s t) ∧
     (s.upl.suspended = false ∨ s.upl.wakeWanted = false → exec .hubRemoteWake s = .next s))

/-- 07 R166, R170, R172, R173: a packet without the start delimiter is none. One that fails a check is discarded in this order: a
masked header counts in MASKCNT and is no error; another wrong HCRC is HCRC; a TYPE, ADDR or LEN that the tables exclude is PROTO.
None gets an answer or starts a transaction; one in progress ends. 07 R174, 06 R145: at x1 every ENABLED Full port gets the
packet's header masked, the routed port the packet unchanged; at x2 none gets anything.

07 R174, R189, R191, Table 7.4 and 08 R194: a request that passes its checks. After the cut-off it is discarded and counted
as CUT; a scheduled request beyond an enforced reservation as OVERRUN; an address without a route, or a route whose port is
not ENABLED, as NOROUTE. A Full port gets it repeated, unless it came at x2, which is X2DISC; for a Basic port the translator takes
it; a function of port I where it is present, and one that has heard its new address answers to no old one (08 R197). A target that got no good packet gives no response (R191). The order of the grounds is
the model's (log 43). No round is in progress and no transaction waits.

07 R173, R175, 06 R145: a packet that starts no transaction goes to the port its ADDR routes to, at x2 to a Full port it is X2DISC; an
FSTART whose data CRC fails is DCRC and goes on whole. -/
def Obligations.HeaderChecksAndRouting : Prop :=
  (∀ (s : State) (p : RawPkt), p.delim ≠ delimiter → exec (.transactionStart p) s = .next s) ∧
  (∀ (s : State) (p : RawPkt) (n : Port), coreRuns s = true → s.pwr.round = .none → s.upl.probing = false →
     p.delim = delimiter →
     let h := p.header
     let down (t : State) : Prop := t.sent[n] =
       if p.x2 = false ∧ (s.port n).state = .ena ∧ (s.port n).full = true then
         some (if routeOf s (hAddr h) = .port n then .repeated p else .masked h) else none
     let out (t : State) : Prop :=
       t.answer = none ∧ t.repUp = none ∧ down t ∧ t.upl.txn = {} ∧ t.hub = s.hub ∧ t.ep0 = s.ep0 ∧ t.ports = s.ports
     let parts : List Part := [.upl, .ttb, .answer, .repUp, .sent]
     (hCrc h = ~~~(crc6 h) →
       Gives (.transactionStart p) s fun t =>
         out t ∧ t.upl = { s.upl with txn := {}, maskCnt := inc16 s.upl.maskCnt } ∧ Frame parts [] s t) ∧
     (hCrc h ≠ crc6 h → hCrc h ≠ ~~~(crc6 h) →
       Gives (.transactionStart p) s fun t =>
         out t ∧ t.upl = { s.upl with txn := {}, hcrcCnt := inc16 s.upl.hcrcCnt } ∧ HdrTook s t .upl 0 (oneBit 0) ∧
         Frame parts [.upl] s t) ∧
     (hCrc h = crc6 h → protoBad h = true →
       Gives (.transactionStart p) s fun t =>
         out t ∧ t.upl = { s.upl with txn := {}, protoCnt := inc16 s.upl.protoCnt } ∧ HdrTook s t .upl 0 (oneBit 2) ∧
         Frame parts [.upl] s t)) ∧
  (∀ (s : State) (p : RawPkt) (m : Port), coreRuns s = true → s.pwr.round = .none → s.upl.probing = false → s.upl.txn = {} →
     (s.hdr .ttb).inrst = false → p.delim = delimiter →
     let h := p.header
     let typ := hType h
     let tgt := routeOf s (hAddr h)
     let late : Prop := 32256 + (8 * (s.clk.tierNow - 1) + s.clk.adjNow) < s.clk.lk.toNat
     let marks : List Part := [.answer, .repUp, .sent, .ep0, .beps, .xlt]
     let masked (t : State) (dst : Option Port) : Prop := t.sent[m] =
       if p.x2 = false ∧ (s.port m).state = .ena ∧ (s.port m).full = true then
         some (if dst = some m then .repeated p else .masked h) else none
     let kept (t : State) : Prop :=
       t.answer = none ∧ (∀ f, { t.ep f with ackable := (s.ep f).ackable } = s.ep f) ∧
       ∀ k, { t.xport k with ackable := (s.xport k).ackable } = s.xport k
     let none_ (t : State) : Prop := t.upl.txn = {} ∧ kept t ∧ masked t none
     let taken (t : State) (dst : Target) (mute : Bool) : Prop :=
       t.upl.txn.target = dst ∧ t.upl.txn.phase = .turnaround ∧ t.upl.txn.addr = hAddr h ∧ t.upl.txn.seq = hSeq h ∧
       t.upl.txn.sched = (typ = 5 || typ = 6) ∧ t.upl.txn.wantsAck = (typ = 4) ∧ t.upl.txn.start = s.now ∧
       t.upl.txn.mute = mute ∧ kept t
     let noRoute_ : Prop := Gives (.transactionStart p) s fun t =>
       none_ t ∧ t.upl = { s.upl with nrtCnt := inc16 s.upl.nrtCnt } ∧ HdrTook s t .upl (oneBit 3) 0 ∧
       Frame (.upl :: marks) [.upl] s t
     hCrc h = crc6 h → protoBad h = false →
     (startsTxn typ = true →
       (late →
         Gives (.transactionStart p) s fun t =>
           none_ t ∧ t.ttb = { s.ttb with cutCnt := inc16 s.ttb.cutCnt } ∧ HdrTook s t .ttb (oneBit 3) 0 ∧
           Frame (.ttb :: marks) [.ttb] s t) ∧
       (¬ late → overrun s tgt typ = true →
         Gives (.transactionStart p) s fun t =>
           none_ t ∧ t.ttb = { s.ttb with ovrCnt := inc16 s.ttb.ovrCnt } ∧ HdrTook s t .ttb (oneBit 2) 0 ∧
           Frame (.ttb :: marks) [.ttb] s t) ∧
       (¬ late → overrun s tgt typ = false →
         (tgt = .none → noRoute_) ∧
         (∀ n, tgt = .port n →
           ((s.port n).state ≠ .ena ∨ (s.port n).suspReq = true → noRoute_) ∧
           ((s.port n).state = .ena → (s.port n).suspReq = false →
             ((s.port n).full = true → p.x2 = true →
               Gives (.transactionStart p) s fun t =>
                 taken t tgt true ∧ masked t none ∧ t.upl.x2Cnt = inc16 s.upl.x2Cnt ∧ HdrTook s t .upl (oneBit 4) 0 ∧
                 Frame (.upl :: marks) [.upl] s t) ∧
             ((s.port n).full = true → p.x2 = false →
               Gives (.transactionStart p) s fun t =>
                 taken t tgt false ∧ masked t (some n) ∧ HdrTook s t .upl 0 (if dataOk p then 0 else oneBit 1) ∧
                 Frame (.upl :: marks) [.upl] s t) ∧
             ((s.port n).full = false →
               Gives (.transactionStart p) s fun t =>
                 taken t (.xlt n) (!dataOk p) ∧ masked t none ∧ (t.xport n).ackable = none ∧
                 Frame (.upl :: marks) [] s t))) ∧
         (tgt = .portI → funcAt s (hAddr h) = none → noRoute_) ∧
         (∀ f, tgt = .portI → funcAt s (hAddr h) = some f →
           Gives (.transactionStart p) s fun t =>
             taken t tgt (!dataOk p) ∧ masked t none ∧ (t.ep f).ackable = false ∧
             t.hub = (if dataOk p = false then s.hub
               else if f = .hub then { s.hub with addrOld := if s.hub.addr = hAddr h then [] else s.hub.addrOld }
               else { s.hub with brAddrOld := if s.hub.brAddr = hAddr h then [] else s.hub.brAddrOld }) ∧
             HdrTook s t .upl 0 (if dataOk p then 0 else oneBit 1) ∧ Frame (.upl :: .hub :: marks) [.upl] s t))) ∧
     (startsTxn typ = false → typ ≠ 12 →
       (x2ToFull s p = true →
         Gives (.transactionStart p) s fun t =>
           none_ t ∧ t.upl = { s.upl with x2Cnt := inc16 s.upl.x2Cnt } ∧ HdrTook s t .upl (oneBit 4) 0 ∧
           Frame (.upl :: marks) [.upl] s t) ∧
       (x2ToFull s p = false →
         Gives (.transactionStart p) s fun t =>
           t.upl = s.upl ∧ kept t ∧ masked t (routedPort s p) ∧ Frame marks [] s t)) ∧
     (typ = 12 → dataOk p = false →
       Gives (.transactionStart p) s fun t =>
         t.upl = { s.upl with dcrcCnt := inc16 s.upl.dcrcCnt } ∧ HdrTook s t .upl 0 (oneBit 1) ∧
         t.sent[m] = (if (s.port m).state = .ena ∧ (s.port m).full = true then
           some (if (s.port m).suspReq || (s.port m).noFs then .masked h else .repeated p) else none) ∧
         Frame (.upl :: marks) [.upl] s t))

/-- 07 R177, R191 and Table 7.5: how a transaction that the Junction repeats ends. The response goes upstream unchanged. A DATA or
DATAZ that the host answers waits for the handshake; any other response, the close of either window, ends it and counts its lk; only
the close of the response window of a port that got the request counts in TOCNT, and one that got no good packet gives no response.

07 R189, 09 R239: at the babble point every ENABLED port that still drives its lane is DISABLED, with BABBLE and the counts;
any other port is untouched. -/
def Obligations.TransactionEnds : Prop :=
  (∀ (s : State) (n : Port) (p : RawPkt), coreRuns s = true →
     let lk := s.now - s.upl.txn.start
     let waits_ : Prop := (hType p.header = 7 ∨ hType p.header = 8) ∧ s.upl.txn.wantsAck = true
     let ended (t : State) (toCnt : Nat) : Prop :=
       t.upl = { s.upl with txn := {}, toCnt := toCnt } ∧
       (s.upl.txn.sched = true → (∀ k : Fin 9, t.ttb.used[k] = s.ttb.used[k] + (if txnTarget s.upl.txn = some k then lk else 0)) ∧
         t.ttb.other = s.ttb.other) ∧
       (s.upl.txn.sched = false → t.ttb.used = s.ttb.used ∧
         t.ttb.other = s.ttb.other + (if s.upl.txn.target = .none then 0 else lk))
     let heard_ (t : State) : Prop :=
       t.repUp = some p ∧ t.port n = { s.port n with misses := 0 } ∧ ∀ m, m ≠ n → t.port m = s.port m
     (s.upl.txn.target = .port n → s.upl.txn.phase = .turnaround →
       ((s.port n).state = .ena → s.upl.txn.mute = false → waits_ →
         Gives (.responseRepeat p) s fun t =>
           t.upl = { s.upl with txn := { s.upl.txn with phase := .handshake } } ∧ heard_ t ∧
           Frame [.upl, .ports, .repUp] [] s t) ∧
       ((s.port n).state = .ena → s.upl.txn.mute = false → ¬ waits_ →
         Gives (.responseRepeat p) s fun t => ended t s.upl.toCnt ∧ heard_ t ∧ Frame [.upl, .ttb, .ports, .repUp] [] s t) ∧
       (s.upl.txn.mute = true → exec (.responseRepeat p) s = .next s) ∧
       Gives .responseWindowClose s (fun t =>
         ended t (if s.upl.txn.mute then s.upl.toCnt else inc16 s.upl.toCnt) ∧ Frame [.upl, .ttb] [] s t)) ∧
     (s.upl.txn.target = .portI ∨ s.upl.txn.target = .xlt n → s.upl.txn.phase = .turnaround →
       Gives .responseWindowClose s fun t => ended t s.upl.toCnt ∧ Frame [.upl, .ttb] [] s t) ∧
     (s.upl.txn.phase = .handshake →
       Gives .handshakeWindowClose s fun t => ended t s.upl.toCnt ∧ Frame [.upl, .ttb] [] s t) ∧
     (s.upl.txn.phase ≠ .handshake → exec .handshakeWindowClose s = .next s)) ∧
  (∀ (s : State) (driving : Byte) (n : Port), coreRuns s = true →
     Gives (.babblePoint driving) s fun t =>
       (driving.getLsbD n.val = true → (s.port n).state = .ena →
         t.port n = { entered s (s.port n) .dsb with
           suspReq := false, selSusp := false, held := false, noFs := false, sinceFs := none,
           babCnt := inc16 (s.port n).babCnt } ∧
         HdrTook s t (.prt n) 0 (oneBit 1)) ∧
       (driving.getLsbD n.val = false ∨ (s.port n).state ≠ .ena →
         t.port n = s.port n ∧ t.xport n = s.xport n ∧ HdrTook s t (.prt n) 0 0) ∧
       ((∃ m : Port, driving.getLsbD m.val = true ∧ (s.port m).state = .ena) → HdrTook s t .ttb (oneBit 4) 0) ∧
       (∀ b, (∀ m, b ≠ .prt m) → b ≠ .ttb → HdrTook s t b 0 0) ∧
       (∀ p, p ∉ [Part.ports, .xlt, .ttb, .upl] → p.same s t) ∧ t.pending = s.pending)

/-- 07 R192: a write of TTB_RESn is refused with RESREJ, and changes nothing, where the written values of the targets that count
would exceed 24,576; any other is taken, and NOW changes at the next local lk 0 only. -/
def Obligations.ReservationWrites : Prop :=
  ∀ (s : State) (k : Fin 9) (w : Word), Live s .ttb →
    let v := w.toNat % 32768
    let counts (j : Fin 9) : Bool := !targetOut s j && (decide (j = k) || !s.ttb.out[j])
    let sum := ((List.finRange 9).map fun j => if counts j then (if j = k then v else s.ttb.res[j]) else 0).sum
    (24576 < sum →
      Gives (.ttbResWrite k w) s fun t => HdrTook s t .ttb (oneBit 1) 0 ∧ Frame [] [.ttb] s t) ∧
    (sum ≤ 24576 →
      Gives (.ttbResWrite k w) s fun t =>
        t.ttb = { s.ttb with
          res := s.ttb.res.set k.val v k.isLt, out := s.ttb.out.set k.val false k.isLt } ∧ Frame [.ttb] [] s t)

/-! ### Control transfers and the endpoints of the hub's functions (07, 08) -/

/-- 07 R189, 14 R371, R373, 05 Table 5.7 and 08 R196: a packet of the host. Out of service nothing happens; in a round it ends the
round with reason 7 against the upstream port, but for an ACK for the hub function before PREADY, which completes the transfer
that started the round (the model's reading, log 37); between PREADY and the stop of an entry to Retain or Heron it gets no
answer; a function that is absent, or a Timetable in Block reset, gives no answer. -/
def Obligations.HostPackets : Prop :=
  ∀ (s : State) (k : Fin 10) (f : Func) (seq x2 : Bool) (q : Setup) (p : List Byte) (len : BitVec 10) (a : BitVec 7)
    (ep : BitVec 4) (i : Inst) (n : Port) (ecc : List SramRead),
    let c : Instr :=
      if k = 0 then .ep0Setup f seq q else if k = 1 then .ep0Out f seq p else if k = 2 then .ep0Outz f seq
      else if k = 3 then .ep0In f seq len else if k = 4 then .ack a ep seq x2 else if k = 5 then .bulkOut i seq p
      else if k = 6 then .bulkIn i seq len ecc else if k = 7 then .urgentIn i true seq len ecc
      else if k = 8 then .xltOutPacket n .out a ep seq p else .xltInToken n false a ep seq len (some 0)
    let spared : Prop := (s.pwr.round = .voting ∨ s.pwr.round = .agreed) ∧ ackToHub s a = true
    let ended (t : State) : Prop :=
      t.pwr.refused = satInc 0xFFFF s.pwr.refused ∧ t.pwr.refReason = 7 ∧ t.pwr.refBlock = 8 ∧ t.pwr.round = .none ∧
      (t.hdr .pwr).evtPnd = (s.hdr .pwr).evtPnd ||| ((s.hdr .pwr).evtEn &&& (oneBit 3 ||| evtRaw t .pwr)) ∧
      t.pending = s.pending
    (inService s = false → s.pwr.round = .none → exec c s = .next s) ∧
    (inService s = true → s.pwr.round ≠ .none → s.pwr.reqHeld = none → ¬ (k = 4 ∧ spared) → Gives c s ended) ∧
    (entering s = true → s.pwr.clockOn = true →
      Gives c s fun t => ended t ∧ t.answer = none ∧ t.ep0 = s.ep0 ∧ t.xlt = s.xlt ∧ t.mvf = s.mvf) ∧
    (k = 4 → spared → inService s = true → s.pwr.reqHeld = none → firstRefusal s = none →
      Gives c s fun t => t.pwr.round = s.pwr.round ∧ t.pwr.refused = s.pwr.refused ∧ t.pwr.refReason = s.pwr.refReason) ∧
    (k.val < 4 → inService s = true → s.pwr.round = .none → fPresent s f = false ∨ (s.hdr .ttb).inrst = true →
      Gives c s fun t => t.answer = none ∧ t.ep0 = s.ep0 ∧ t.hub = s.hub ∧ Frame [.upl, .answer, .pwr] [] s t)

/-- 07 R180, R184 and Tables 7.6, 7.9: a SETUP is always acknowledged. A repeat of the last one changes nothing and counts as
DUP; any other starts a transfer, drops what the old one held back, and is stalled at once where the function does not know
it, is not in its state, or finds its fixed fields wrong. -/
def Obligations.SetupStage : Prop :=
  ∀ (s : State) (f : Func) (seq : Bool) (q : Setup), Heard s f →
    let e := s.ep f
    let rep : Prop := e.lastSetup = some (seq, q) ∧ e.stageSeen = false ∧
      (e.stage = .outData ∨ e.stage = .inData ∨ e.stage = .status)
    let dropped (t : State) : Prop :=
      t.rst = (if f = .hub then { s.rst with swrKey := false, dbgHeld := false } else s.rst) ∧
      t.pwr.reqHeld = (if f = .hub then none else s.pwr.reqHeld)
    let bad : Prop := q.request = 0x41 ∧ rtypeOk f 0x41 q.rtype = false
    (rep →
      Gives (.ep0Setup f seq q) s fun t =>
        Says s t f .ack 0 seq ∧ t.ep f = { e with ackable := false } ∧ t.upl.dupCnt = inc16 s.upl.dupCnt ∧
        HdrTook s t .upl (oneBit 2) 0 ∧ Frame hostParts [.upl] s t) ∧
    (¬ rep → setupBad s f q = none → ¬ bad →
      Gives (.ep0Setup f seq q) s fun t =>
        Says s t f .ack 0 seq ∧ dropped t ∧
        t.ep f = {
          stage := if q.length = 0 then .status else if q.rtype.getLsbD 7 then .inData else .outData,
          lastSetup := some (seq, q), setup := q, busy := true } ∧
        Frame (.rst :: hostParts) [] s t) ∧
    (∀ why, ¬ rep → setupBad s f q = some why →
      Gives (.ep0Setup f seq q) s fun t =>
        Says s t f .ack 0 seq ∧ dropped t ∧ (t.ep f).stage = .halted ∧ (t.ep f).lastSetup = some (seq, q) ∧
        t.hub = { s.hub with
          stallCnt := inc16 s.hub.stallCnt, badReason := badCode why, badRequest := q.request, badRtype := q.rtype } ∧
        Frame (.hub :: .rst :: hostParts) [.hub] s t) ∧
    (¬ rep → setupBad s f q = none → bad → q.value.toNat % 16 = 0 →
      Gives (.ep0Setup f seq q) s fun t =>
        Says s t f .ack 0 seq ∧ dropped t ∧ (t.ep f).stage = .halted ∧
        t.hub = { s.hub with
          stallCnt := inc16 s.hub.stallCnt, badRequest := 0x41, badRtype := q.rtype,
          badReason := badCode (if configured s f = false then .state
            else if regWalled s ⟨f, false, q.value, q.index, q.length⟩ then .off else .format) } ∧
        Frame (.hub :: .rst :: hostParts) [.hub] s t)

/-- 07 R168, R180 and Table 7.9: the OUT data stage and the OUT status stage of a control transfer. After a Core reset that kept the
link the first packet is new whatever its SEQ (05 R108). -/
def Obligations.OutStages : Prop :=
  ∀ (s : State) (f : Func) (seq : Bool) (p : List Byte), Heard s f →
    let e := { s.ep f with ackable := false }
    let out (typ : RespType) (e' : Ep0) (t : State) : Prop := Says s t f typ 0 seq ∧ t.ep f = e' ∧ Frame hostParts [] s t
    let dup (t : State) : Prop :=
      Says s t f .ack 0 seq ∧ t.ep f = e ∧ HdrTook s t .upl (oneBit 2) 0 ∧ Frame hostParts [.upl] s t
    let stalled : Ep0 := { e with stage := .halted, busy := false, pend := none, atEnd := none }
    (64 < p.length → Gives (.ep0Out f seq p) s fun t => t.answer = none ∧ t.ep f = e ∧ Frame hostParts [] s t) ∧
    (p.length ≤ 64 →
      (e.stage = .outData →
        (seq ≠ e.seq → Gives (.ep0Out f seq p) s dup) ∧
        (seq = e.seq → e.got.length + p.length ≤ e.setup.length.toNat →
          Gives (.ep0Out f seq p) s (out .ack { e with got := e.got ++ p, seq := !e.seq, stageSeen := true })) ∧
        (seq = e.seq → e.setup.length.toNat < e.got.length + p.length →
          Gives (.ep0Out f seq p) s (out .stall stalled))) ∧
      (e.stage = .inData ∨ e.stage = .status ∨ e.stage = .halted → Gives (.ep0Out f seq p) s (out .stall e)) ∧
      (e.stage = .none → e.fresh = false → (seq = e.seq → Gives (.ep0Out f seq p) s (out .stall e)) ∧
        (seq ≠ e.seq → Gives (.ep0Out f seq p) s dup)) ∧
      (e.stage = .none → e.fresh = true →
        Gives (.ep0Out f seq p) s (out .stall { e with seq := seq, fresh := false }))) ∧
    (e.stage = .outData → Gives (.ep0Outz f seq) s (out .stall stalled)) ∧
    (e.stage = .halted → Gives (.ep0Outz f seq) s (out .stall e)) ∧
    (e.stage = .inData ∨ e.stage = .status →
      (seq = false → Gives (.ep0Outz f seq) s (out .stall e)) ∧
      (seq = true → e.busy = true → Gives (.ep0Outz f seq) s (out .nrdy e)) ∧
      (seq = true → e.busy = false →
        Gives (.ep0Outz f seq) s (out .ack
          { e with stage := .none, pend := none, data := [], ready := false, seq := false, stageSeen := true }))) ∧
    (e.stage = .none → e.fresh = false →
      (seq = true ∨ seq ≠ e.seq → Gives (.ep0Outz f seq) s dup) ∧
      (seq = false → e.seq = false → Gives (.ep0Outz f seq) s (out .stall e))) ∧
    (e.stage = .none → e.fresh = true → Gives (.ep0Outz f seq) s (out .stall { e with seq := seq, fresh := false }))

/-- 07 R168, R180, R182, R189 and Tables 7.8, 7.9: the IN data stage and the IN status stage. A DATA stays pending and is sent
again with its SEQ; a token with the other SEQ shows that the host has it, and one shorter than 64 bytes ends the stage. A port
feature's first status IN waits for its answer (08 R203), a replayed refusal is a STALL (08 Table 8.10). The DATAZ of the status
stage takes a new address (08 R197), starts an INST_RESET (08 R213) or the round of a held power request (14 R370).

08 R195, R197: the address of a completed SET_ADDR comes into force after the DATAZ of its status stage, routes to port I,
and raises ADDRSET of its function; the old address is answered until the new one is heard. -/
def Obligations.InStages : Prop :=
  (∀ (s : State) (f : Func) (seq : Bool) (len : BitVec 10), Heard s f →
     let e := { s.ep f with ackable := false }
     let out (typ : RespType) (t : State) : Prop := Says s t f typ 0 seq ∧ t.ep f = e ∧ Frame hostParts [] s t
     let fits (p : List Byte) : Prop := p.length ≤ len.toNat + 1 ∧ (p = [] ∨ dataFits s p.length = true)
     let tells (q : Bool) (p : List Byte) (t : State) : Prop :=
       t.answer = some (if p = [] then ⟨.dataz, fAddr s f, 0, q, 0, []⟩
         else ⟨.data, fAddr s f, 0, q, BitVec.ofNat 10 (p.length - 1), p⟩)
     let sent (q : Bool) (p : List Byte) (e' : Ep0) (t : State) : Prop :=
       tells q p t ∧ t.ep f = { e' with pend := some (q, p), ackable := true, stageSeen := true } ∧ Frame hostParts [] s t
     let chunk (d : List Byte) : List Byte := d.take (min 64 (len.toNat + 1))
     let atStatus : Prop := e.stage = .status ∨ (e.stage = .outData ∧ e.got.length = e.setup.length.toNat)
     let ends : Prop := e.busy = false ∧ e.replayBad = false ∧ atStatus
     let dataz (e' : Ep0) (t : State) : Prop :=
       t.answer = some ⟨.dataz, fAddr s f, 0, true, 0, []⟩ ∧
       t.ep f = { e' with
         stage := .none, pend := some (true, []), ackable := true, stageSeen := true, data := [], ready := false, atEnd := none }
     (e.stage = .halted → Gives (.ep0In f seq len) s (out .stall)) ∧
     (e.stage = .none →
       (e.pend = none → Gives (.ep0In f seq len) s (out .stall)) ∧
       (∀ q, e.pend.map (·.1) = some q →
         Gives (.ep0In f seq len) s fun t =>
           tells q ((e.pend.map (·.2)).getD []) t ∧ t.ep f = { e with ackable := true } ∧ Frame hostParts [] s t)) ∧
     (e.stage = .outData → e.got.length ≠ e.setup.length.toNat → Gives (.ep0In f seq len) s (out .stall)) ∧
     (atStatus → e.replayBad = true →
       Gives (.ep0In f seq len) s fun t =>
         Says s t f .stall 0 seq ∧ t.ep f = { e with stage := .halted, busy := false, pend := none, atEnd := none } ∧
         Frame hostParts [] s t) ∧
     (atStatus → e.replayBad = false → e.busy = true →
       (isFeature e.setup = false → Gives (.ep0In f seq len) s (out .nrdy)) ∧
       (isFeature e.setup = true →
         Gives (.ep0In f seq len) s fun t =>
           t.answer = none ∧ t.ep f = { e with inWaits := true } ∧ Frame hostParts [] s t)) ∧
     (e.stage = .inData → e.ready = false → Gives (.ep0In f seq len) s (out .nrdy)) ∧
     (e.stage = .inData → e.ready = true → e.pend = none →
       (fits (chunk e.data) → Gives (.ep0In f seq len) s (sent e.seq (chunk e.data) e)) ∧
       (¬ fits (chunk e.data) → Gives (.ep0In f seq len) s (out .nrdy))) ∧
     (∀ q, e.stage = .inData → e.ready = true → e.pend.map (·.1) = some q →
       let p := (e.pend.map (·.2)).getD []
       let next := chunk (e.data.drop p.length)
       (seq = q → fits p → q = e.seq → Gives (.ep0In f seq len) s (sent q p e)) ∧
       (seq = q → ¬ fits p → Gives (.ep0In f seq len) s (out .nrdy)) ∧
       (seq ≠ q → 64 ≤ p.length → fits next →
         Gives (.ep0In f seq len) s (sent (!e.seq) next { e with data := e.data.drop p.length, seq := !e.seq })) ∧
       (seq ≠ q → p.length < 64 → e.busy = false → e.replayBad = false → e.atEnd = none →
         f = .bridge ∨ s.pwr.reqHeld = none →
         Gives (.ep0In f seq len) s fun t => dataz { e with seq := !e.seq } t ∧ Frame hostParts [] s t)) ∧
     (ends → e.atEnd = none → f = .bridge ∨ s.pwr.reqHeld = none →
       Gives (.ep0In f seq len) s fun t => dataz e t ∧ Frame hostParts [] s t) ∧
     (ends → f = .hub → ∀ l, e.atEnd = none → s.pwr.reqHeld = some l → s.pwr.low = none → s.pwr.exit = .none →
       (s.hdr .pwr).inrst = false →
       Gives (.ep0In f seq len) s fun t =>
         dataz e t ∧ t.pwr.reqHeld = none ∧ (t.pwr.round = .voting ∨ t.pwr.refused = satInc 0xFFFF s.pwr.refused) ∧
         t.pwr.rstate = l ∧ Frame (.aon :: hostParts) [.pwr] s t) ∧
     (ends → s.pwr.reqHeld = none → ∀ i : Inst, e.atEnd = some (.instReset i) → (s.hdr (.mvf i)).inrst = false →
       Gives (.ep0In f seq len) s fun t =>
         dataz e t ∧ (t.hdr (.mvf i)).inrst = true ∧ (t.hdr (.mvf i)).flr = true ∧ (t.inst i).rx = [] ∧
         (t.inst i).staging = [] ∧ t.pending = s.pending)) ∧
  (∀ (s : State) (f : Func) (seq : Bool) (len : BitVec 10) (a : BitVec 7) (b : Fin 128), Heard s f →
     s.pwr.reqHeld = none → (s.ep f).stage = .status → (s.ep f).busy = false → (s.ep f).replayBad = false →
     Gives (.ep0In f seq len) (s.modEp f fun e => { e with atEnd := some (.addr a) }) fun t =>
       t.hub.routes[b] = (if b.val = a.toNat then 8 else s.hub.routes[b]) ∧
       (f = .hub → t.hub.addr = a ∧
         t.hub.addrOld = (if s.hub.addr = a then s.hub.addrOld else s.hub.addr :: s.hub.addrOld) ∧
         t.hub.brAddr = s.hub.brAddr) ∧
       (f = .bridge → t.hub.brAddr = a ∧
         t.hub.brAddrOld = (if s.hub.brAddr = a then s.hub.brAddrOld else s.hub.brAddr :: s.hub.brAddrOld) ∧
         t.hub.addr = s.hub.addr) ∧
       t.answer = some ⟨.dataz, fAddr s f, 0, true, 0, []⟩ ∧
       HdrTook s t .hub (oneBit (if f = .hub then 0 else 1)) 0 ∧ Frame (.hub :: hostParts) [.hub] s t)

/-- 08 R205, 07 R168, R181 and 14 R372, R374: a poll of the hub function's EP1. No answer before configuration; PREADY where every
participant has agreed, with which the detector is disarmed and, for Retain and Heron, the entry begins; else STALL while
halted, the eight bytes of the bitmap where a bit is set or EP1ALL asks for them and the token accepts them (log 33), or NRDY. The
first DATA after a Core reset that kept the link takes the token's SEQ (05 R108).

07 R182, 10 R254 and 13 R356: the host's ACK counts only for the DATA whose next packet it is. On EP0 the data are
delivered and SEQ toggles; on an IN endpoint of the bridge the entries sent become READ, or are freed in mailbox mode; on a
translated port the stored item is finished. 07 R174, 06 R145: a Full port to which it is routed gets it, but none at x2. -/
def Obligations.StatusEndpointAndAcks : Prop :=
  (∀ (s : State) (seq : Bool) (len : BitVec 10), coreRuns s = true → (s.hdr .ttb).inrst = false → s.upl.probing = false →
     entering s = false → (s.upl.txn.target = .portI ∨ (s.upl.txn.target = .none ∧ pastCutoff s = false)) →
     let data : Prop := (s.hub.ep1All = true ∨ ∃ x ∈ bitmap s, x ≠ 0) ∧ 8 ≤ len.toNat + 1 ∧ dataFits s 8 = true
     let q := if s.hub.ep1Fresh then seq else s.hub.ep1Seq
     let parts : List Part := [.ep0, .upl, .ttb, .answer]
     (s.hub.conf = false → Gives (.ep1Poll seq len) s fun t => t.answer = none ∧ Frame [.ep0, .upl, .answer] [] s t) ∧
     (s.hub.conf = true → s.pwr.round = .none →
       (s.hub.ep1Halted = true →
         Gives (.ep1Poll seq len) s fun t => Says s t .hub .stall 1 seq ∧ Frame parts [] s t) ∧
       (s.hub.ep1Halted = false → data →
         Gives (.ep1Poll seq len) s fun t =>
           t.answer = some ⟨.data, fAddr s .hub, 1, q, 7, bitmap s⟩ ∧
           t.hub = { s.hub with ep1Seq := !q, ep1Fresh := false } ∧ Frame (.hub :: parts) [] s t) ∧
       (s.hub.ep1Halted = false → ¬ data →
         Gives (.ep1Poll seq len) s fun t => Says s t .hub .nrdy 1 seq ∧ Frame parts [] s t)) ∧
     (s.hub.conf = true → s.pwr.round = .agreed → firstRefusal s = none → allConsented s = true → s.upl.txn.target = .none →
       Gives (.ep1Poll seq len) s fun t =>
         t.answer = some ⟨.pready, s.hub.addr, 1, false, 0, []⟩ ∧
         (t.pwr.round = .preadySent →
           t.clk.armed = false ∧ t.pwr.noMiss = true ∧ t.pwr.entry = (if s.pwr.rstate = .park then 0 else 1) ∧
           t.hdr .pwr = hdrAfter s t .pwr (oneBit 2) (levelErrs t .pwr)) ∧
         Frame (.pwr :: .clk :: .aon :: parts) [.pwr] s t)) ∧
  (∀ (s : State) (a : BitVec 7) (ep : BitVec 4) (seq x2 : Bool) (f : Func) (k : Fin 12) (n : Port), coreRuns s = true →
     s.pwr.round = .none → s.upl.probing = false →
     let acks : List Part := .sent :: .hub :: hostParts
     (routeOf s a = .portI → funcAt s a = some f →
       (ep = 0 →
         Gives (.ack a ep seq x2) s fun t =>
           t.ep f = (if (s.ep f).ackable = true ∧ (s.ep f).pend.isSome = true then
             { s.ep f with
               pend := none, data := (s.ep f).data.drop ((s.ep f).pend.elim 0 (·.2.length)), ackable := false,
               seq := if (s.ep f).stage = .inData then !(s.ep f).seq else (s.ep f).seq,
               stage := if (s.ep f).stage = .inData ∧ (s.ep f).pend.elim 0 (·.2.length) < 64 then .status
                 else (s.ep f).stage }
             else { s.ep f with ackable := false }) ∧
           t.answer = none ∧ Frame acks [] s t) ∧
       (f = .bridge → ep.toNat = k.val + 1 → k.val % 3 ≠ 0 → (s.bep k).pend.isSome = true →
         ((s.bep k).ackable = false →
           Gives (.ack a ep seq x2) s fun t => t.mvf = s.mvf ∧ (t.bep k).pend = (s.bep k).pend ∧ Frame acks [] s t) ∧
         ((s.bep k).ackable = true →
           Gives (.ack a ep seq x2) s fun t =>
             (t.bep k).pend = none ∧ (t.bep k).seq = !(s.bep k).seq ∧
             t.inst (bepInst k) = rxDeliver (s.inst (bepInst k)) (bepState k) ∧
             (∀ j, j ≠ bepInst k → t.inst j = s.inst j) ∧ t.answer = none ∧
             Frame (.mvf :: .mbr :: .dbg :: acks) [.mbr] s t))) ∧
     (routeOf s a = .port n → translated s n = true →
       let parts : List Part := [.xlt, .upl, .ttb, .answer, .sent]
       ((s.xport n).ackable ≠ some ep →
         Gives (.ack a ep seq x2) s fun t => t.xport n = { s.xport n with ackable := none } ∧ Frame parts [] s t) ∧
       ((s.xport n).ackable = some ep → s.xlt.prefetch.getLsbD n.val = false →
         (∃ i ∈ inItem (s.xport n) ep, i.sent = true) →
         Gives (.ack a ep seq x2) s fun t =>
           (t.xport n).inDone = inc16 (s.xport n).inDone ∧ inItem (t.xport n) ep = none ∧ (t.xport n).ackable = none ∧
           (t.xport n).outHalt = (s.xport n).outHalt ∧ (∀ m, m ≠ n → t.xport m = s.xport m) ∧
           Frame parts [.xlt] s t)) ∧
     (routeOf s a = .port n → (s.port n).state = .ena → (s.port n).suspReq = false → (s.port n).full = true →
       (x2 = false →
         Gives (.ack a ep seq x2) s fun t =>
           t.sent[n] = some (.repeated (ackPkt a ep seq false)) ∧ t.port n = s.port n ∧
           Frame [.upl, .ttb, .answer, .sent] [] s t) ∧
       (x2 = true →
         Gives (.ack a ep seq x2) s fun t =>
           t.sent[n] = none ∧ t.upl.x2Cnt = inc16 s.upl.x2Cnt ∧ HdrTook s t .upl (oneBit 4) 0 ∧
           Frame [.upl, .answer, .sent] [.upl] s t)))

/-! ### Register access through the functions (08, 02) -/

/-- 08 R206, R207, R212 and 02 R33, R34, R38, R48: a REG_READ is refused in its order of grounds, with ACCVIOL where the bridge
function leaves its instance's page; else it returns the words. FIXED returns one sample in every word. A read of TXCOMP
removes the record it returns; a read of RXWIN0 selects the head of the queue, or waits with no other effect. A read abandoned before
its side effects leaves the record and the entry where they are (13 R350). Corrected words of the memory are counted.

02 R48, 08 R207 and 13 R352, R353: a REG_READ of RXWIN0 that waits completes when an item has come, and then takes it; at
WAITLIM, or when the instance is fenced or disabled, it returns zeros and raises WAITEXP of its instance; an item that has come by
WAITLIM is taken without WAITEXP. Each function waits for itself. Without a waiting read neither happens. -/
def Obligations.RegisterReads : Prop :=
  (∀ (s : State) (f : Func) (value index length : Half) (b : Blk) (off : Fin 64) (i : Inst) (err : RdErr) (left : Option Nat)
      (corr : Nat), coreRuns s = true →
     let r : RegReq := ⟨f, true, value, index, length⟩
     let ok : RdErr := ⟨[], 0⟩
     let first : Nat := (rxQueue (s.inst i)).head?.elim 0 (·.arr)
     let at_ : Half := BitVec.ofNat 16 (256 * blkPage b + 4 * off.val)
     let inst (o : Nat) : Half := BitVec.ofNat 16 (0x2400 + 256 * i.val + o)
     let tag : Half := BitVec.ofNat 16 (if f = .bridge then 256 * i.val else 0)
     let plain : Prop := ∀ j, b = .mvf j → off.val ≠ 0x23 ∧ off.val ≠ 0x28 ∧ off.val ≠ 0x3B
     let gave (g : Func) (d : List Byte) (t : State) : Prop :=
       t.ep g = { s.ep g with data := d, ready := true, busy := false, wait := none } ∧ (∀ h, h ≠ g → t.ep h = s.ep h)
     let instGave (d : List Byte) (t : State) : Prop :=
       gave f d t ∧ (∀ j, j ≠ i → t.inst j = s.inst j) ∧ Frame [.ep0, .free, .mvf, .dbg] [] s t
     (configured s f = false → Gives (.regRead f value index length err left) s (Refuses f (regRtype r false) 0x40 .state s)) ∧
     (∀ why, configured s f = true →
       regBad r = some why ∨ (regBad r = none ∧ why = .off ∧ regWalled s r = true) →
       Gives (.regRead f value index length err left) s fun t =>
         (t.ep f).stage = .halted ∧ t.hub.badReason = badCode why ∧ t.hub.stallCnt = inc16 s.hub.stallCnt ∧
         HdrTook s t .hub (oneBit 4 ||| (if f = .bridge ∧ r.addrs.all (inMvf r.iface) = false then oneBit 6 else 0)) 0 ∧
         Frame [.hub, .ep0] [.hub] s t) ∧
     (s.hub.conf = true → plain →
       Gives (.regRead .hub 0 at_ 4 ok none) s (fun t =>
         gave .hub (wordBytes (readWord s at_)) t ∧ Frame [.ep0, .free, .dbg] [] s t) ∧
       Gives (.regRead .hub 0x10 at_ 8 ok none) s (fun t =>
         gave .hub (wordBytes (readWord s at_) ++ wordBytes (readWord s at_)) t ∧ Frame [.ep0, .free, .dbg] [] s t) ∧
       (b ≠ .dbg →
         Gives (.regRead .hub 0 at_ 4 ⟨[], corr⟩ none) s fun t =>
           t.dbg = { s.dbg with corr := satAdd 0xFFFF s.dbg.corr corr } ∧ (t.ep .hub).data = wordBytes (readWord s at_))) ∧
     (configured s f = true → (s.hdr (.mvf i)).inrst = false →
       (f = .bridge → instWalled s i = false) →
       Gives (.regRead f tag (inst 0x8C) 4 ok none) s (fun t =>
         instGave (wordBytes (match (s.inst i).cq with
           | [] => 0
           | c :: _ => crecWord c)) t ∧
         t.inst i = { s.inst i with cq := (s.inst i).cq.drop 1 }) ∧
       Gives (.regRead f tag (inst 0x8C) 4 ok (some 1)) s (Frame [.free, .dbg] [] s) ∧
       (rxOff s i = false → rxCurrent (s.inst i) = none →
         Gives (.regRead f tag (inst 0xA0) 4 ok (some 1)) s (Frame [.free, .dbg] [] s) ∧
         (rxQueue (s.inst i) = [] →
           Gives (.regRead f tag (inst 0xA0) 4 ok none) s fun t =>
             t.ep f = { s.ep f with wait := some ⟨tag, inst 0xA0, 4⟩ } ∧ (∀ h, h ≠ f → t.ep h = s.ep h) ∧
             Frame [.ep0] [] s t) ∧
         (rxQueue (s.inst i) ≠ [] →
           Gives (.regRead f tag (inst 0xA0) 4 ok none) s fun t =>
             t.inst i = rxSelect (s.inst i) first .current ∧ instGave (wordBytes (winWord t i 0)) t)))) ∧
  (∀ (s : State) (f : Func) (i : Inst), coreRuns s = true →
     let tag : Half := BitVec.ofNat 16 (if f = .bridge then 256 * i.val else 0)
     let ok : RdErr := ⟨[], 0⟩
     let first : Nat := (rxQueue (s.inst i)).head?.elim 0 (·.arr)
     let u : State := s.modEp f fun x => { x with wait := some ⟨tag, BitVec.ofNat 16 (0x24A0 + 256 * i.val), 4⟩ }
     let gave (d : List Byte) (t : State) : Prop :=
       t.ep f = { s.ep f with data := d, ready := true, busy := false, wait := none } ∧ (∀ h, h ≠ f → t.ep h = s.ep h)
     let took (t : State) : Prop :=
       t.inst i = rxSelect (s.inst i) first .current ∧ (∀ j, j ≠ i → t.inst j = s.inst j) ∧
       gave (wordBytes (winWord t i 0)) t ∧ Frame [.ep0, .free, .mvf, .dbg] [] s t
     let expired (t : State) : Prop :=
       gave [0, 0, 0, 0] t ∧ HdrTook s t (.mvf i) (oneBit 12) 0 ∧ Frame [.ep0, .free, .dbg] [.mvf i] s t
     ((s.ep f).wait = none → exec (.regReadResume f ok) s = .next s ∧ exec (.waitexp f i ok) s = .next s) ∧
     ((s.hdr (.mvf i)).inrst = false → rxOff s i = true → Gives (.regReadResume f ok) u expired) ∧
     ((s.hdr (.mvf i)).inrst = false → rxOff s i = false → rxCurrent (s.inst i) = none →
       (rxQueue (s.inst i) = [] →
         exec (.regReadResume f ok) u = .next u ∧
         ((s.inst i).waitLim = 0 → exec (.waitexp f i ok) u = .next u) ∧
         ((s.inst i).waitLim ≠ 0 → Gives (.waitexp f i ok) u expired)) ∧
       (rxQueue (s.inst i) ≠ [] →
         Gives (.regReadResume f ok) u took ∧ ((s.inst i).waitLim ≠ 0 → Gives (.waitexp f i ok) u took))))

/-- 08 R206, R208 to R212, Table 8.10 and 00 R10: a REG_WRITE is refused in its order of grounds, the wrapper of an instance before the
window is consulted (the model's order, log 32); a tag that the window holds is replayed, with STALL in the status stage where it did not
complete, or clashes. Otherwise the tag enters the window as INCOMPLETE with DONE 0, once for each request, and the words of its
data, LSB first, execute in ascending order once all of them have come; then the entry is COMPLETE and the transfer may end; where the
transfer was abandoned after `n` words, only those executed, and the entry is INCOMPLETE with DONE `n`. The check may come in a row of
its own before the data (the model's row, log 50). FIXED writes one register. Shown for the words of BKP. -/
def Obligations.RegisterWrites : Prop :=
  ∀ (s : State) (f : Func) (value index length : Half) (words : Vector Word 16) (n : Nat) (m j : Fin 16), coreRuns s = true →
    let r : RegReq := ⟨f, true, value, index, length⟩
    let c : Instr := .regWrite f value index length n
    let found := if r.tag = 0 then none else tagFind s r
    let denied : Word := if f = .bridge ∧ r.addrs.all (inMvf r.iface) = false then oneBit 6 else 0
    let k : Nat := m.val + 1
    let fixed : Bool := value.getLsbD 4
    let u : State := s.modEp .hub fun e => { e with
      got := (words.toList.take k).flatMap fun (w : Word) => [w.setWidth 8, (w >>> 8).setWidth 8, (w >>> 16).setWidth 8, (w >>> 24).setWidth 8] }
    let isOpen : Bool := (s.ep f).regOpen = some (value, index, length)
    let bkpOpen : Bool := (s.ep .hub).regOpen = some (value, 0x0540, BitVec.ofNat 16 (4 * k))
    let wrote (t : State) : Prop :=
      (fixed = false → t.bkp.bkp[j] = if j.val < k ∧ j.val < n then words[j] else s.bkp.bkp[j]) ∧
      (fixed = true → t.bkp.bkp[j] = if j.val = 0 ∧ 0 < n then words.toList.getD (min k n - 1) 0 else s.bkp.bkp[j]) ∧
      t.bkp.wp = s.bkp.wp ∧ (t.ep .hub).busy = (decide (n < k) && (s.ep .hub).busy) ∧ (t.ep .hub).regOpen = none ∧
      (value.toNat % 16 = 0 → t.hub = s.hub) ∧
      Frame [.bkp, .hub, .ep0] [] (if n = 0 then u else newLk u) t
    (configured s f = false → isOpen = false → Gives c s (Refuses f (regRtype r true) 0x41 .state s)) ∧
    (isOpen = true → (s.ep f).got.length ≠ length.toNat → Gives c s (Frame [] [] s)) ∧
    (configured s f = true → isOpen = false → regWalled s r = true →
      Gives c s fun t =>
        t.hub.tags = s.hub.tags ∧ t.hub.badReason = 10 ∧ (t.ep f).stage = .halted ∧
        HdrTook s t .hub (oneBit 4 ||| denied) 0 ∧ Frame [.hub, .ep0] [.hub] s t) ∧
    (configured s f = true → isOpen = false → regWalled s r = false →
      (∀ tag ∈ found.toList, tagSame tag r = true →
        Gives c s fun t =>
          t.hub = { s.hub with replayCnt := inc16 s.hub.replayCnt } ∧ HdrTook s t .hub (oneBit 2) 0 ∧
          t.ep f = (if tag.result = .complete then { s.ep f with busy := false }
            else { s.ep f with busy := false, replayBad := true }) ∧
          Frame [.hub, .ep0] [.hub] s t) ∧
      (∀ tag ∈ found.toList, tagSame tag r = false →
        Gives c s fun t =>
          t.hub.tags = s.hub.tags ∧ t.hub.badReason = 8 ∧ (t.ep f).stage = .halted ∧
          HdrTook s t .hub (oneBit 4 ||| oneBit 3) 0 ∧ Frame [.hub, .ep0] [.hub] s t) ∧
      (∀ why, found = none → regBad r = some why →
        Gives c s fun t =>
          t.hub.tags = (tagPush s r .refused).hub.tags ∧ t.hub.badReason = badCode why ∧ (t.ep f).stage = .halted ∧
          HdrTook s t .hub (oneBit 4 ||| denied) 0 ∧ Frame [.hub, .ep0] [.hub] s t) ∧
      (found = none → regBad r = none → (s.ep f).got.length ≠ length.toNat →
        Gives c s fun t =>
          t.hub = (tagPush s r .incomplete).hub ∧ t.ep f = { s.ep f with regOpen := some (value, index, length) } ∧
          Frame [.hub, .ep0] [] s t)) ∧
    (value.toNat < 32 → (s.hdr .bkp).inrst = false →
      (s.hub.conf = true → bkpOpen = false →
        (if value.toNat % 16 = 0 then none else tagFind s ⟨.hub, true, value, 0x0540, BitVec.ofNat 16 (4 * k)⟩) = none →
        Gives (.regWrite .hub value 0x0540 (BitVec.ofNat 16 (4 * k)) n) u fun t =>
          wrote t ∧
          (value.toNat % 16 ≠ 0 →
            t.hub.tags[0] = ⟨.hub, value.toNat % 16, 0x0540, 4 * k, fixed, if k ≤ n then .complete else .incomplete,
              if k ≤ n then 0 else n⟩ ∧ t.hub.tags[1] = s.hub.tags[0] ∧ t.hub.tags[7] = s.hub.tags[6])) ∧
      (bkpOpen = true → 0 < n →
        Gives (.regWrite .hub value 0x0540 (BitVec.ofNat 16 (4 * k)) n) u fun t =>
          wrote t ∧
          t.hub = (tagMark s ⟨.hub, true, value, 0x0540, BitVec.ofNat 16 (4 * k)⟩ (if k ≤ n then .complete else .incomplete)
            (if k ≤ n then 0 else n)).hub))
/-! ### Requests (08) -/

/-- 08 R198, R200, R204, Tables 8.3 to 8.8 and 8.13: the requests with IN data. Each gives its bytes, or is refused with its
reason; an endpoint of an instance in Siding with 0xA (12 R329). -/
def Obligations.RequestsWithData : Prop :=
  ∀ (s : State) (f : Func) (value index length : Half), coreRuns s = true →
    let fmt (b : Bool) (rest : Option Bad) : Option Bad := if b = true then rest else some .format
    Request (.getDesc f value index length) f 0x80 0x01 (fmt ((value = 0x0100 || value = 0x0200) && index = 0) none)
      (GaveData f length (if value = 0x0100 then deviceDesc s f else configSet f) s) s ∧
    Request (.getConfig f value index length) f 0x80 0x04 (fmt (value = 0 && index = 0 && length = 1) none)
      (GaveData f 1 [if configured s f then 1 else 0] s) s ∧
    Request (.getStatus f false value index length) f 0x80 0x05 (fmt (value = 0 && index = 0 && length = 2) none)
      (GaveData f 2 [if f = .hub ∧ s.hub.remoteWake = true then 2 else 0, 0] s) s ∧
    Request (.getStatus f true value index length) f 0x82 0x05
      (fmt (value = 0 && length = 2) (if (epNamed s f index).isNone then some .target
        else if epFenced s f index = true then some .off else none))
      (GaveData f 2 [if (epNamed s f index).elim false (epHalted s) then 1 else 0, 0] s) s ∧
    Request (.getHubDesc f value index length) f 0xA0 0x20 (fmt (value = 0 && index = 0) none)
      (GaveData f length (hubDesc s) s) s ∧
    Request (.getRoute f value index length) f 0xA0 0x25
      (fmt (index = 0 && length = 1) (if 126 < value.toNat then some .target else none))
      (GaveData f 1 [(s.hub.routes.toList.getD value.toNat 0xF#4).setWidth 8] s) s ∧
    Request (.getPortStatus f value index length) f 0xA3 0x21
      (fmt (value = 0 && length = 8) (if 8 < index.toNat then some .target else none))
      (fun t =>
        (index = 8 → GaveData f 8 [if s.hub.brPres then 4 else 2, if s.hub.brPres then 3 else 0, 0, 0, 0, 0, 0, 0] s t) ∧
        (∀ n : Port, index.toNat = n.val →
          let d := (t.ep f).data
          d.length = 8 ∧ d.getD 0 0 = BitVec.ofNat 8 (pstateCode (s.port n).state) ∧
          (d.getD 1 0).getLsbD 0 = (s.port n).powerNow ∧ (d.getD 1 0).getLsbD 1 = (s.port n).full ∧
          ((s.port n).pflt = true → (d.getD 1 0).getLsbD 2 = true) ∧
          (d.getD 1 0).getLsbD 3 = decide ((s.port n).state = .sid) ∧ (d.getD 1 0).getLsbD 4 = (s.port n).power ∧
          wordAt d 4 = (s.hdr (.prt n)).evtPnd ∧ (t.ep f).ready = true ∧ (t.ep f).busy = false ∧
          Frame [.ep0, .free] [] s t)) s

/-- 08 R195 to R198, R204, R213 and 07 R181: the requests without a data stage. The effect of SET_ADDR and INST_RESET waits for
the DATAZ of the status stage; a halt request on an endpoint of an instance in Block reset waits for its end, and one on an endpoint of
an instance in Siding is refused with 0xA (12 R329, Table 12.7). -/
def Obligations.RequestsWithoutData : Prop :=
  ∀ (s : State) (f : Func) (value index length : Half) (a : Fin 128), coreRuns s = true →
    let fmt (b : Bool) (rest : Option Bad) : Option Bad := if b = true then rest else some .format
    let target (b : Bool) : Option Bad := if b = true then some .target else none
    let held (t : State) (x : AtEnd) : Prop :=
      t.ep f = { s.ep f with busy := false, atEnd := some x } ∧ Frame [.ep0] [] s t
    let named := epNamed s f index
    let isEp0 := named.elim true fun e => match e with
      | .ep0 => true
      | .hub1 => false
      | .br _ => false
    Request (.setAddr f value index length) f 0x00 0x02
      (fmt (index = 0 && length = 0) (target (value = 0 || 126 < value.toNat || addrUsed s f (value.setWidth 7))))
      (fun t => held t (.addr (value.setWidth 7))) s ∧
    Request (.setConfig f value index length) f 0x00 0x03 (fmt ((value = 0 || value = 1) && index = 0 && length = 0) none)
      (fun t => Executed f s t ∧
        (f = .hub → t.hub = { s.hub with
          conf := decide (value = 1), ep1Seq := if value = 0 then false else s.hub.ep1Seq } ∧ Frame [.hub, .ep0] [] s t) ∧
        (f = .bridge → t.hub = { s.hub with brConf := decide (value = 1) } ∧
          (∀ k : Fin 12, (t.bep k).seq = (if value = 0 then false else (s.bep k).seq) ∧ (t.bep k).halted = (s.bep k).halted) ∧
          Frame [.hub, .ep0, .beps] [] s t)) s ∧
    Request (.setWake f value index length) f 0x00 0x08 (fmt ((value = 0 || value = 1) && index = 0 && length = 0) none)
      (fun t => Executed f s t ∧ t.hub = { s.hub with remoteWake := decide (value = 1) } ∧ Frame [.hub, .ep0] [] s t) s ∧
    Request (.clrHalt f value index length) f 0x02 0x06 (fmt (value = 0 && length = 0) (if named.isNone then some .target else if epFenced s f index = true then some .off else none))
      (fun t =>
        (epWaits s f index = true → Frame [] [] s t) ∧
        (epWaits s f index = false → Executed f s t ∧
          (named = some .hub1 → t.hub = { s.hub with ep1Halted := false, ep1Seq := false } ∧ Frame [.hub, .ep0] [] s t) ∧
          (∀ k, named = some (.br k) → (t.bep k).halted = false ∧ (t.bep k).seq = false ∧ (t.bep k).pend = (s.bep k).pend ∧
            (∀ j, j ≠ k → t.bep j = s.bep j) ∧ Frame [.ep0, .beps] [] s t) ∧
          (named = some .ep0 → Frame [.ep0] [] s t))) s ∧
    Request (.setHalt f value index length) f 0x02 0x07 (fmt (value = 0 && length = 0) (if isEp0 then some .target else if epFenced s f index = true then some .off else none))
      (fun t =>
        (epWaits s f index = true → Frame [] [] s t) ∧
        (epWaits s f index = false → Executed f s t ∧
          (named = some .hub1 → t.hub = { s.hub with ep1Halted := true } ∧ Frame [.hub, .ep0] [] s t) ∧
          (∀ k, named = some (.br k) → t.bep k = { s.bep k with halted := true } ∧
            (∀ j, j ≠ k → t.bep j = s.bep j) ∧ Frame [.ep0, .beps] [] s t))) s ∧
    Request (.setRoute f value index length) f 0x20 0x24
      (fmt (length = 0) (target (value = 0 || 126 < value.toNat || !(decide (index.toNat < 8) || index = 0xF) ||
        routeProtected s value.toNat)))
      (fun t => Executed f s t ∧
        t.hub.routes[a] = (if a.val = value.toNat then index.setWidth 4 else s.hub.routes[a]) ∧
        t.hub.addr = s.hub.addr ∧ Frame [.hub, .ep0] [] s t) s ∧
    Request (.instReset f value index length) f 0x21 0x30
      (fmt (value = 0 && length = 0)
        (if 3 < index.toNat then some .target else if instWalled s (Fin.ofNat 4 index.toNat) then some .off else none))
      (fun t => held t (.instReset (Fin.ofNat 4 index.toNat))) s
/-- 08 R199, R203, R219 and Table 8.7: the port features. A port that does not exist is refused with reason 9 (the model's reason for
port I, log 32), a port that is disabled, in Siding or in Block reset with 10, a command that the port refuses with 2; a refused
command is refused by the port as well (09 R219), but in its Block reset. POWER writes the setting; the commands act as the port commands
do. The first status IN waits for the feature and then has DATAZ, or STALL. RESET of port I takes the bridge function out, and 64 lk later
it is there again with the default route, if MBR is enabled. -/
def Obligations.PortFeatures : Prop :=
  ∀ (s : State) (n : Port) (index : Half) (quiet : Bool) (k : Fin 6), coreRuns s = true → s.hub.conf = true →
    let c (x : Half) : Instr :=
      if k = 0 then .setPortFeatPower x else if k = 1 then .clrPortFeatPower x else if k = 2 then .setPortFeatReset x
      else if k = 3 then .setPortFeatSuspend x else if k = 4 then .clrPortFeatSuspend x quiet else .clrPortFeatEnable x
    let code : Byte := if k = 0 ∨ k = 2 ∨ k = 3 then 0x22 else 0x23
    let cmd : BitVec 4 := if k = 2 then 1 else if k = 3 then 2 else if k = 4 then 3 else 4
    let pin : Half := BitVec.ofNat 16 n.val
    let h := s.hdr (.prt n)
    let away : Prop := h.en = false ∨ h.siding = true ∨ h.inrst = true
    let refused (why : BitVec 4) (t : State) : Prop :=
      (t.ep .hub).stage = .halted ∧ t.hub.badReason = why ∧ t.hub.badRequest = code ∧ t.hub.badRtype = 0x23 ∧
      t.hub.stallCnt = inc16 s.hub.stallCnt ∧ HdrTook s t .hub (oneBit 4) 0 ∧
      PortGets s t n { s.port n with rejState := (s.port n).state, rejCmd := cmd } (oneBit 11) 0 ∧
      Frame [.hub, .ep0, .ports] [.hub, .prt n] s t
    ((s.ep .hub).inWaits = false →
      (8 < index.toNat → Gives (c index) s (Refuses .hub 0x23 code .target s)) ∧
      (k ≠ 2 → Gives (c 8) s (Refuses .hub 0x23 code .target s)) ∧
      (away → k.val < 2 ∨ h.inrst = true → Gives (c pin) s (Refuses .hub 0x23 code .off s)) ∧
      (away → 2 ≤ k.val → h.inrst = false → Gives (c pin) s (refused 10)) ∧
      (¬ away →
        (k.val < 2 →
          Gives (c pin) s fun t =>
            Executed .hub s t ∧ PortGets s t n { s.port n with power := decide (k = 0) } 0 0 ∧ Frame [.ports, .ep0] [] s t) ∧
        (2 ≤ k.val → cmdTaken (s.port n).state cmd.toNat = false → Gives (c pin) s (refused 2)) ∧
        (2 ≤ k.val → cmdTaken (s.port n).state cmd.toNat = true →
          Gives (c pin) s fun t =>
            Executed .hub s t ∧ t.port n = (portCmd s n cmd (k = 4 && quiet)).port n ∧ OtherPorts s t n ∧
            Frame [.ep0, .ports, .xlt, .clk, .lastRise] [.prt n] s t)) ∧
      (Gives (.setPortFeatReset 8) s fun t =>
        t.hub = { s.hub with
          brPres := false, brConf := false, brAddr := 0, brAddrOld := [], brResetWait := true, routes := t.hub.routes } ∧
        (s.hub.brPres = true → s.hub.brAddr ≠ 0 → t.hub.routes[s.hub.brAddr.toFin] = 0xF) ∧
        t.ep .bridge = { fresh := (s.ep .bridge).fresh } ∧ Executed .hub s t ∧
        (∀ j, (t.bep j).seq = false ∧ (t.bep j).halted = (s.bep j).halted) ∧ Frame [.hub, .ep0, .beps] [] s t)) ∧
    ((s.ep .hub).inWaits = true →
      (away ∨ (2 ≤ k.val ∧ cmdTaken (s.port n).state cmd.toNat = false) →
        Gives (c pin) s fun t => Says s t .hub .stall 0 false ∧ (t.ep .hub).stage = .halted ∧ (t.ep .hub).inWaits = false) ∧
      (¬ away → k.val < 2 ∨ cmdTaken (s.port n).state cmd.toNat = true → (s.ep .hub).stage ≠ .halted →
        Gives (c pin) s fun t =>
          Says s t .hub .dataz 0 true ∧ (t.ep .hub).stage = .none ∧ (t.ep .hub).pend = some (true, []) ∧
          (t.ep .hub).inWaits = false)) ∧
    (s.hub.brResetWait = true →
      Gives .bridgeDefaultState s fun t =>
        t.hub.brResetWait = false ∧ t.hub.brPres = ((s.hdr .mbr).en || s.hub.brPres) ∧
        ((s.hdr .mbr).en = true → t.hub.routes[0] = 8) ∧ ((s.hdr .mbr).en = false → t.hub.routes = s.hub.routes) ∧
        t.hub.addr = s.hub.addr ∧ Frame [.hub] [] s t) ∧
    (s.hub.brResetWait = false → exec .bridgeDefaultState s = .next s)

/-! ### Downstream ports (09) -/

/-- 09 R226 on a live port: what each lane event of row 13 of Table 9.2 does to a port in DISCONNECTED, attached or not, and that it
does nothing else.

09 R222–R225 on a live port: a waiting rise of PWRENn takes place once 1,024 lk have passed since the last rise of any port and 16,384
lk since its own fall, the lowest port first, unless an entry holds it; the end of the fault blanking, the end of the settle
count, and an overcurrent in each kind of state. An overcurrent within the blanking and in OFF has no effect but on the level. -/
def Obligations.PortEvents : Prop :=
  (∀ (s : State) (n : Port), Live s (.prt n) → (s.port n).state = .dsc →
     ((s.port n).debounce = false →
       Gives (.connect n) s fun t =>
         PortGets s t n { s.port n with debounce := true } (oneBit 0) 0 ∧ Frame [.ports] [.prt n] s t) ∧
     ((s.port n).debounce = true →
       Gives (.connectWithdrawn n) s fun t =>
         PortGets s t n { s.port n with debounce := false } 0 0 ∧ Frame [.ports] [.prt n] s t) ∧
     ((s.port n).debounce = true →
       Gives (.attach n) s fun t =>
         PortGets s t n { s.port n with debounce := false, attached := true } (oneBit 1) 0 ∧
         Frame [.ports] [.prt n] s t) ∧
     ((s.port n).attached = true →
       Gives (.detach n) s fun t =>
         PortGets s t n { s.port n with attached := false } (oneBit 2) 0 ∧ Frame [.ports] [.prt n] s t)) ∧
  (∀ (s : State) (n : Port), Live s (.prt n) →
     let p := s.port n
     let rested (q : Option Nat) (lk : Nat) : Bool := q.all fun x => decide (x + lk ≤ s.now)
     let lower : Prop := ∃ m : Port, m < n ∧ (s.port m).pwrPend = true ∧ rested (s.port m).fell 16384 = true
     let may : Prop :=
       rested s.lastRise 1024 = true ∧ rested p.fell 16384 = true ∧ ¬ lower ∧ held s (portBit n) = false
     let low : PortSt := { p with pflt := true }
     (p.state = .off → p.pwrPend = true → may →
       Gives (.pwrenRise n) s fun t =>
         PortGets s t n { entered s p .pwg with pwrPend := false, watched := false } 0 0 ∧
         t.lastRise = some s.now ∧ XltOnly s t n ∧ Frame [.ports, .lastRise, .xlt] [.prt n] s t) ∧
     (¬ may ∨ p.pwrPend = false → Nothing (.pwrenRise n) s) ∧
     (p.state = .pwg →
       Gives (.faultBlankingEnd n) s fun t =>
         PortGets s t n { p with watched := true } 0 0 ∧ Frame [.ports] [.prt n] s t) ∧
     (p.state = .pwg →
       Gives (.settleEnd n) s fun t =>
         PortGets s t n { entered s p .dsc with watched := true } (oneBit 3) 0 ∧
         XltOnly s t n ∧ Frame [.ports, .xlt] [.prt n] s t) ∧
     (Gives (.overcurrent n false) s fun t => PortGets s t n { p with pflt := false } 0 0 ∧ Frame [.ports] [.prt n] s t) ∧
     (p.state = .off ∨ (p.state = .pwg ∧ p.watched = false) →
       Gives (.overcurrent n true) s fun t => PortGets s t n low 0 0 ∧ Frame [.ports] [.prt n] s t) ∧
     (p.state = .sid →
       Gives (.overcurrent n true) s fun t => PortGets s t n low 0 (oneBit 0) ∧ Frame [.ports] [.prt n] s t) ∧
     ((s.hdr (.prt n)).en = true → (s.hdr (.prt n)).siding = false → p.state ≠ .off → p.state ≠ .sid →
       (p.state = .pwg → p.watched = true) →
       Gives (.overcurrent n true) s fun t =>
         t.port n = { cleanPort (entered s p .off) with
           pflt := true, powerNow := false, pwrPend := false, watched := false, ovcCnt := inc16 p.ovcCnt,
           cause := (if attachedState p then 3 else p.cause), fell := some s.now } ∧
         OtherPorts s t n ∧
         HdrTook s t (.prt n) (oneBit 12 ||| (if p.state = .rsm then oneBit 8 else 0)) (oneBit 0) ∧
         XltOnly s t n ∧ Frame [.ports, .xlt, .clk] [.prt n] s t))

/-- 09 Table 9.2 rows 17 to 20 with R218, R227, R232, R234, R235: what the four port commands do where the port takes
them (EN is 1). RESET with POWERNOW 1 after apply starts or restarts a port reset; in OFF it applies the settings and PWRENn rises, or
waits; with POWER 0 it ends in OFF. A RESUME that the entry handshake holds starts with the end of the hold (14 R369).

09 R219 with Table 9.2: a refused command changes nothing, raises CMDREJ and records the command and the state in
PRTn_LASTREJ; it is refused exactly where EN is 0 or Table 9.2 says "ref". -/
def Obligations.PortCommands : Prop :=
  (∀ (s : State) (n : Port), Live s (.prt n) → (s.hdr (.prt n)).en = true →
     let p := s.port n
     let live : Prop := p.state = .dsc ∨ p.state = .rst ∨ p.state = .ena ∨ p.state = .sus ∨ p.state = .rsm ∨ p.state = .dsb
     let rsm : Word := if p.state = .rsm then oneBit 8 else 0
     (live → p.power = true →
       Gives (.reset n) s fun t =>
         PortGets s t n
           { p with
             state := .rst, drive := .forced, powerNow := true, speedNow := p.speed, settleNow := p.settle, full := false,
             suspReq := false, selSusp := false, held := false, noFs := false, sinceFs := none, misses := 0,
             chgFrame := if p.state = .rst then p.chgFrame else s.clk.frame,
             chgLk := if p.state = .rst then p.chgLk else s.clk.lk } rsm 0 ∧
         t.clk.trim[n].outNow = s.clk.trim[n].out ∧ t.clk.trim[n].rxNow = s.clk.trim[n].rx ∧
         XltOnly s t n ∧ Frame [.ports, .xlt, .clk] [.prt n] s t) ∧
     (live → p.power = false → (s.hdr (.prt n)).siding = false →
       Gives (.reset n) s fun t =>
         (t.port n).state = .off ∧ (t.port n).powerNow = false ∧ (t.port n).fell = some s.now ∧
         (t.port n).cause = (if attachedState p then 4 else p.cause) ∧
         HdrTook s t (.prt n) (oneBit 12 ||| rsm) 0 ∧ OtherPorts s t n ∧ Frame [.ports, .xlt, .clk] [.prt n] s t) ∧
     (p.state = .off → p.pwrPend = false →
       Gives (.reset n) s fun t =>
         Applied p (riseAllowed s n) (t.port n) ∧ OtherPorts s t n ∧ Frame [.ports, .xlt, .clk, .lastRise] [.prt n] s t) ∧
     (p.state = .ena →
       Gives (.suspend n) s fun t =>
         PortGets s t n { p with suspReq := true } 0 0 ∧ Frame [.ports] [.prt n] s t) ∧
     (p.state = .sus →
       Gives (.suspend n) s fun t =>
         PortGets s t n { p with selSusp := true } 0 0 ∧ Frame [.ports] [.prt n] s t) ∧
     (∀ quiet, p.state = .sus →
       (held s (portBit n) = false →
         Gives (.resume n quiet) s fun t =>
           PortGets s t n
             { entered s p .rsm with drive := if quiet then .quiet else .resume, held := false } 0 0 ∧
           Frame [.ports] [.prt n] s t) ∧
       (held s (portBit n) = true →
         Gives (.resume n quiet) s fun t =>
           (t.port n).state = .sus ∧ (t.port n).held = true ∧ OtherPorts s t n)) ∧
     (∀ quiet, p.state = .rsm ∨ (p.state = .ena ∧ p.suspReq = false) → Nothing (.resume n quiet) s) ∧
     (∀ quiet, p.state = .ena → p.suspReq = true → p.sinceFs.getD 0 < 3 →
       Gives (.resume n quiet) s fun t =>
         PortGets s t n { p with suspReq := false, noFs := true } 0 0 ∧ Frame [.ports] [.prt n] s t) ∧
     (∀ quiet, p.state = .ena → p.suspReq = true → 3 ≤ p.sinceFs.getD 0 →
       Gives (.resume n quiet) s fun t =>
         PortGets s t n { p with held := true } 0 0 ∧ Frame [.ports] [.prt n] s t) ∧
     (p.state = .rst ∨ p.state = .ena ∨ p.state = .sus ∨ p.state = .rsm →
       Gives (.disable n) s fun t =>
         PortGets s t n
           { entered s p .dsb with
             suspReq := false, selSusp := false, held := false, noFs := false, sinceFs := none } rsm 0 ∧
         XltOnly s t n ∧ Frame [.ports, .xlt] [.prt n] s t) ∧
     (p.state = .dsb → Nothing (.disable n) s)) ∧
  (∀ (s : State) (n : Port) (c : Fin 4) (quiet : Bool), Live s (.prt n) →
     let st := (s.port n).state
     let cmd : Instr := if c = 0 then .reset n else if c = 1 then .suspend n else if c = 2 then .resume n quiet else .disable n
     let refused : Prop := (s.hdr (.prt n)).en = false ∨ st = .sid ∨
       (c = 1 ∧ st ≠ .ena ∧ st ≠ .sus) ∨
       (c = 2 ∧ st ≠ .ena ∧ st ≠ .sus ∧ st ≠ .rsm) ∨
       (c = 3 ∧ (st = .off ∨ st = .pwg ∨ st = .dsc))
     (refused →
       Gives cmd s fun t =>
         PortGets s t n { s.port n with rejState := st, rejCmd := BitVec.ofNat 4 (c.val + 1) } (oneBit 11) 0 ∧
         Frame [.ports] [.prt n] s t) ∧
     (¬ refused → Gives cmd s fun t => (t.port n).rejCmd = (s.port n).rejCmd ∧ (t.port n).rejState = (s.port n).rejState))

/-- 09 R227 with 06 Table 6.5, 08 R195 and 10 R250: the phases of a port reset. At its end the port is ENABLED, RSTDONE is raised,
ATTACHED and DEBOUNCE are clear, address 0 routes to the port, and a Basic port holds a grant where the translator works. DCLKn runs from
DISCONNECTED on, in every state but OFF, POWERING and Siding, while the port is enabled, out of reset and clocked (09 R216, R224,
04 R81). -/
def Obligations.PortResetPhases : Prop :=
  (∀ (s : State) (n : Port), Live s (.prt n) → (s.port n).state = .rst →
    ((s.port n).drive = .forced →
      Gives (.forcedPhaseEnd n) s fun t =>
        PortGets s t n { s.port n with drive := .window } 0 0 ∧ Frame [.ports] [.prt n] s t) ∧
    ((s.port n).drive = .window → (s.port n).speedNow ≠ 1 →
      Gives (.chirpAccepted n) s fun t =>
        PortGets s t n { s.port n with drive := .answer, full := true } 0 0 ∧ Frame [.ports] [.prt n] s t) ∧
    ((s.port n).speedNow = 1 → Nothing (.chirpAccepted n) s) ∧
    ((s.port n).drive = .window →
      Gives (.chirpError n) s fun t =>
        PortGets s t n { s.port n with drive := .errorLow } 0 (oneBit 3) ∧ Frame [.ports] [.prt n] s t) ∧
    ((s.port n).drive ≠ .forced →
      Gives (.resetEnd n) s fun t =>
        PortGets s t n { entered s (s.port n) .ena with attached := false, debounce := false, misses := 0 } (oneBit 4) 0 ∧
        t.hub = { s.hub with routes := s.hub.routes.set 0 (BitVec.ofNat 4 n.val) } ∧ XltOnly s t n ∧
        (t.xport n).granted = (!(s.port n).full && (active s .xlt || (s.xport n).granted)) ∧
        Frame [.ports, .hub, .xlt] [.prt n, .xlt] s t)) ∧
  (∀ (s : State) (n : Port),
    let h := s.hdr (.prt n)
    let st := (s.port n).state
    (dclkRuns s n = true ↔ s.pins.railL = true ∧ released s (.prt n) = true ∧ h.en = true ∧ h.inrst = false ∧
      h.siding = false ∧ s.pwr.clockOn = true ∧ s.pwr.gated = false ∧ st ≠ .off ∧ st ≠ .pwg ∧ st ≠ .sid))

/-- 09 R231, R239 and Table 9.2 rows 4 to 6: self-reset, missed probes and unsolicited drive. A high sample starts the count of missed
probes anew.

09 R233, R235, R237: the suspend point, the drive and the end of a resume, and a remote wake. -/
def Obligations.PortPresence : Prop :=
  (∀ (s : State) (n : Port) (highSeen : Bool), Live s (.prt n) →
     let p := s.port n
     let missed : Nat := (if highSeen = true then 0 else p.misses) + 1
     (p.state = .ena ∨ p.state = .sus ∨ p.state = .dsb →
       (Gives (.selfReset n) s fun t =>
         PortGets s t n
           { cleanPort (entered s p .dsc) with debounce := true, cause := 2, discCnt := inc16 p.discCnt }
           (oneBit 5 ||| oneBit 0) 0 ∧ XltOnly s t n ∧ Frame [.ports, .xlt] [.prt n] s t) ∧
       (p.misslim ≠ 0 → p.misslim ≤ missed →
         Gives (.missedProbe n highSeen) s fun t =>
           PortGets s t n { cleanPort (entered s p .dsc) with cause := 1, discCnt := inc16 p.discCnt } (oneBit 5) 0 ∧
           XltOnly s t n ∧ Frame [.ports, .xlt] [.prt n] s t) ∧
       (p.misslim = 0 ∨ missed < p.misslim → missed ≤ 15 →
         Gives (.missedProbe n highSeen) s fun t =>
           PortGets s t n { p with misses := missed } 0 0 ∧ Frame [.ports] [.prt n] s t)) ∧
     (p.state = .ena →
       Gives (.unsolicitedDrive n) s fun t =>
         PortGets s t n
           { entered s p .dsb with
             suspReq := false, selSusp := false, held := false, noFs := false, sinceFs := none, misses := 0,
             babCnt := inc16 p.babCnt } 0 (oneBit 2) ∧
         XltOnly s t n ∧ Frame [.ports, .xlt] [.prt n] s t)) ∧
  (∀ (s : State) (n : Port) (quiet : Bool), Live s (.prt n) →
     let p := s.port n
     (p.state = .ena → p.sinceFs.isSome = true → p.held = false →
       Gives (.suspendPoint n quiet) s fun t =>
         PortGets s t n
           { entered s p .sus with selSusp := p.suspReq, suspReq := false, sinceFs := none, noFs := false } (oneBit 6) 0 ∧
         Frame [.ports] [.prt n] s t) ∧
     (p.state = .ena → p.sinceFs.isSome = true → p.held = true → held s (portBit n) = false →
       Gives (.suspendPoint n quiet) s fun t =>
         PortGets s t n
           { entered s p .rsm with
             drive := if quiet then .quiet else .resume, held := false, selSusp := p.suspReq, suspReq := false,
             sinceFs := none, noFs := false } (oneBit 6) 0 ∧
         Frame [.ports] [.prt n] s t) ∧
     (p.state = .ena → p.sinceFs = none → Nothing (.suspendPoint n quiet) s) ∧
     (p.state = .rsm → p.drive = .quiet →
       Gives (.resumeDriveStart n) s fun t =>
         PortGets s t n { p with drive := .resume } 0 0 ∧ Frame [.ports] [.prt n] s t) ∧
     (p.state = .rsm → p.drive = .resume →
       Gives (.resumeEnd n) s fun t =>
         PortGets s t n { entered s p .ena with selSusp := false, sinceFs := none, noFs := true, misses := 0 } (oneBit 7) 0 ∧
         Frame [.ports] [.prt n] s t) ∧
     (p.state = .sus → held s (portBit n) = false → p.wakeen = true →
       Gives (.remoteWake n) s fun t =>
         PortGets s t n
           { entered s p .rsm with drive := .resume, held := false, wakeCnt := inc16 p.wakeCnt, misses := 0 } (oneBit 9) 0 ∧
         t.upl = (if s.upl.suspended && s.hub.remoteWake then { s.upl with wakeWanted := true } else s.upl) ∧
         Frame [.ports, .upl] [.prt n] s t) ∧
     (p.state = .sus → held s (portBit n) = false → p.wakeen = false →
       Gives (.remoteWake n) s fun t =>
         PortGets s t n { p with misses := 0 } (oneBit 10) 0 ∧ Frame [.ports] [.prt n] s t))

/-! ### The translator (10) -/

/-- 10 R247, R248, R251 to R255 and Table 10.2: an OUT-direction packet for a translated port. More than 64 bytes get no
answer and set OVSZ; a marked group stalls all but a SETUP; a repeat is acknowledged, not stored; without a credit it is
NRDY with OVCR; else it is stored as the newest item, in the bank that is open or the next one, and acknowledged. What is stored on EP0
ends the repeats of the SETUP.

10 R246, R247, R254, R256, R268 and Table 10.2: an IN token for a translated port. A marked group stalls; a group without an item
posts a fetch with a credit, or reports NOIN, and the token is NRDY; a stored item that the token cannot take is NRDY with
INLEN, before its SEQ can show a delivery (the model's order, log 47); a SEQ that shows the delivery finishes the item; an item that the
memory gives damaged is discarded with its mark; else its DATA or DATAZ is sent, pending for an IN and finished for a SIN.

10 R272, R245 and 07 Table 7.4: during a Block reset of XLT an ENABLED Basic port answers NRDY; a packet that routes elsewhere is not
heard. -/
def Obligations.TranslatorPackets : Prop :=
  (∀ (s : State) (n : Port) (kind : OutKind) (addr : BitVec 7) (ep : BitVec 4) (seq : Bool) (b : List Byte),
     XltHears s n addr →
     let p := { s.xport n with ackable := none }
     let c : Instr := .xltOutPacket n kind addr ep seq b
     let quiet (t : State) : Prop := t.xport n = p ∧ ∀ m, m ≠ n → t.xport m = s.xport m
     let halted : Prop := kind ≠ .setup ∧ p.outHalt.getLsbD ep.toNat = true
     let rep : Prop := (kind = .setup ∧ p.lastSetup = some (seq, b)) ∨
       ((kind = .out ∨ kind = .outz) ∧ p.lastSeq[ep.toNat] = some seq)
     (64 < b.length →
       Gives c s fun t =>
         t.answer = none ∧ quiet t ∧ t.xlt.ovszCnt = inc16 s.xlt.ovszCnt ∧ HdrTook s t .xlt 0 (oneBit 1) ∧
         Frame xltParts [.xlt] s t) ∧
     (b.length ≤ 64 →
       (halted → Gives c s fun t => XltSays t n .stall addr ep seq ∧ quiet t ∧ Frame xltParts [] s t) ∧
       (¬ halted → rep →
         Gives c s fun t =>
           XltSays t n .ack addr ep seq ∧ quiet t ∧ t.upl.dupCnt = inc16 s.upl.dupCnt ∧ HdrTook s t .upl (oneBit 2) 0 ∧
           Frame xltParts [.upl] s t) ∧
       (¬ halted → ¬ rep → outFree p = 0 →
         Gives c s fun t =>
           XltSays t n .nrdy addr ep seq ∧ quiet t ∧ t.xlt.ovcrCnt = inc16 s.xlt.ovcrCnt ∧
           HdrTook s t .xlt 0 (oneBit 0) ∧ Frame xltParts [.xlt] s t) ∧
       (∀ k, ¬ halted → ¬ rep → outFree p ≠ 0 → pickBank p.ob p.obLast = some k →
         Gives c s fun t =>
           XltSays t n .ack addr ep seq ∧
           (t.xport n).items = p.items ++ [
             { kind := itemKind kind, ep := ep, addr := addr, seq := seq, bytes := b, bank := k }] ∧
           (t.xport n).ob[k] = writeSlot p.ob[k] ∧ (t.xport n).obLast = some k ∧ (t.xport n).ib = p.ib ∧
           (kind ≠ .setup → (t.xport n).outHalt = p.outHalt ∧ (t.xport n).inHalt = p.inHalt ∧
             (t.xport n).lastSetup = (if ep = 0 then none else p.lastSetup)) ∧
           (kind = .setup →
             (t.xport n).outHalt.getLsbD 0 = false ∧ (t.xport n).inHalt.getLsbD 0 = false ∧
             (t.xport n).lastSetup = some (seq, b)) ∧
           (kind = .out ∨ kind = .outz → (t.xport n).lastSeq[ep.toNat] = some seq) ∧
           (∀ m, m ≠ n → t.xport m = s.xport m) ∧ Frame xltParts [] s t))) ∧
  (∀ (s : State) (n : Port) (sin : Bool) (addr : BitVec 7) (ep : BitVec 4) (seq : Bool) (len : BitVec 10) (corr : Nat),
     XltHears s n addr →
     let p := { s.xport n with ackable := none }
     let c (ecc : SramRead) : Instr := .xltInToken n sin addr ep seq len ecc
     let g := grp true ep
     let halted : Prop := marked p g = true
     let quiet (t : State) : Prop := t.xport n = p ∧ ∀ m, m ≠ n → t.xport m = s.xport m
     (∀ ecc, halted → Gives (c ecc) s fun t => XltSays t n .stall addr ep seq ∧ quiet t ∧ Frame xltParts [] s t) ∧
     (∀ ecc, ¬ halted → inItem p ep = none →
       (inFree p = 0 →
         Gives (c ecc) s fun t =>
           XltSays t n .nrdy addr ep seq ∧ quiet t ∧ t.xlt.noinCnt = inc16 s.xlt.noinCnt ∧
           HdrTook s t .xlt (oneBit 25) 0 ∧ Frame xltParts [.xlt] s t) ∧
       (∀ k, inFree p ≠ 0 → pickBank p.ib p.ibLast = some k →
         Gives (c ecc) s fun t =>
           XltSays t n .nrdy addr ep seq ∧
           (t.xport n).items = p.items ++ [
             { kind := if sin then .sin else .inn, ep := ep, addr := addr, seq := false, bytes := [], bank := k,
               len := min 63 len.toNat }] ∧
           (t.xport n).ib[k] = writeSlot p.ib[k] ∧ (t.xport n).ibLast = some k ∧ (t.xport n).ob = p.ob ∧
           (∀ m, m ≠ n → t.xport m = s.xport m) ∧ Frame xltParts [] s t)) ∧
     (∀ i ∈ (inItem p ep).toList, ¬ halted →
       (∀ ecc, i.stored = false → Gives (c ecc) s fun t => XltSays t n .nrdy addr ep seq ∧ quiet t ∧ Frame xltParts [] s t) ∧
       (∀ ecc, i.stored = true → len.toNat + 1 < i.bytes.length →
         Gives (c ecc) s fun t =>
           XltSays t n .nrdy addr ep seq ∧ quiet t ∧ t.xlt.inlenCnt = inc16 s.xlt.inlenCnt ∧
           HdrTook s t .xlt (oneBit 26) 0 ∧ Frame xltParts [.xlt] s t) ∧
       (∀ ecc, i.stored = true → i.bytes.length ≤ len.toNat + 1 → sin = false → i.sent = true → seq ≠ i.seq →
         Gives (c ecc) s fun t =>
           XltSays t n .nrdy addr ep seq ∧ (t.xport n).inDone = inc16 p.inDone ∧
           (∀ x ∈ (t.xport n).items, x.isIn = true → x.grp = g → x.stored = false) ∧
           (∀ m, m ≠ n → t.xport m = s.xport m) ∧ Frame xltParts [.xlt] s t) ∧
       (i.stored = true → i.bytes.length ≤ len.toNat + 1 → sin = true ∨ i.sent = false ∨ seq = i.seq →
         (Gives (c none) s fun t =>
           XltSays t n .stall addr ep seq ∧ marked (t.xport n) i.grp = true ∧ inItem (t.xport n) ep = none ∧
           t.dbg.uncorr = satInc 0xFFFF s.dbg.uncorr ∧ HdrTook s t .xlt
             (oneBit (16 + n.val) ||| (if outFree p < outFree (t.xport n) then oneBit n.val else 0)) (oneBit 3) ∧
           (∀ m, m ≠ n → t.xport m = s.xport m) ∧ Frame (.dbg :: .free :: xltParts) [.xlt] s t) ∧
         (i.bytes = [] ∨ dataFits s i.bytes.length = true →
           let sent (t : State) : Prop :=
             t.answer = some ⟨if i.bytes = [] then .dataz else .data, addr, i.ep, i.seq,
               BitVec.ofNat 10 (i.bytes.length - 1), i.bytes⟩ ∧
             t.dbg = { s.dbg with corr := satAdd 0xFFFF s.dbg.corr corr } ∧ ∀ m, m ≠ n → t.xport m = s.xport m
           (sin = false →
             Gives (c (some corr)) s fun t =>
               sent t ∧ (t.xport n).ackable = some i.ep ∧ (t.xport n).inDone = p.inDone ∧
               (inItem (t.xport n) ep).map (·.sent) = some true ∧ Frame (.dbg :: xltParts) [] s t) ∧
           (sin = true → s.xlt.prefetch.getLsbD n.val = false →
             Gives (c (some corr)) s fun t =>
               sent t ∧ (t.xport n).inDone = inc16 p.inDone ∧ inItem (t.xport n) ep = none ∧
               Frame (.dbg :: xltParts) [.xlt] s t))))) ∧
  (∀ (s : State) (n : Port) (addr : BitVec 7) (ep : BitVec 4) (seq : Bool) (b : List Byte), coreRuns s = true →
     s.pwr.round = .none → s.upl.probing = false → (s.hdr .ttb).inrst = false →
     let c : Instr := .xltOutPacket n .out addr ep seq b
     let p := { s.xport n with ackable := none }
     (routeOf s addr ≠ .port n → Gives c s fun t => t.answer = none ∧ t.xport n = p ∧ Frame xltParts [] s t) ∧
     (routeOf s addr = .port n → s.upl.txn.target = .xlt n → (s.hdr .xlt).inrst = true → (s.port n).state = .ena →
       (s.port n).full = false → (s.port n).suspReq = false →
       Gives c s fun t => XltSays t n .nrdy addr ep seq ∧ t.xport n = p ∧ Frame xltParts [] s t))

/-- 10 R257 to R262, R268, 09 R231 and Table 10.3: the Basic lane. The oldest ready item of the port goes on the lane as its packet, a
fetch with the SEQ expected; corrected words of its slot are counted, and a damaged one is discarded. A SOUT or a SIN ends with
its one attempt; an ACK finishes an OUT item and counts it; a STALL finishes it and marks its group; the data of an IN with the expected
SEQ are stored and acknowledged, those of a SIN stored; anything else retries, until RETRYLIM. After NRDY, nothing or a failed packet the
group is in back-off, and a back-off that ends frees it.

10 R265, R267: a write of XLT_DROP discards the items of the named directions at the named port, but one on the lane; a
direction 0 or a port that is not translated takes nothing. A group that loses a delivered item is marked, its other items
go with it, DROPCNT counts the delivered ones and HALT[n] is raised. -/
def Obligations.BasicLane : Prop :=
  (∀ (s : State) (n : Port) (q : Bool) (d : List Byte) (g : Fin 32) (corr : Nat), coreRuns s = true →
     let p := s.xport n
     let others (t : State) : Prop := (∀ m, m ≠ n → t.xport m = s.xport m) ∧ ∀ m, m ≠ n → t.sent[m] = s.sent[m]
     let sends (t : State) (x : RawPkt) : Prop := t.sent[n] = some (.own x)
     let packet (i : Item) : RawPkt :=
       match i.kind with
       | .out => mkPkt 1 i.addr i.ep i.seq (BitVec.ofNat 10 (i.bytes.length - 1)) i.bytes false
       | .outz => mkPkt 2 i.addr i.ep i.seq 0 [] false
       | .setup => mkPkt 3 i.addr i.ep i.seq 7 i.bytes false
       | .sout => mkPkt 5 i.addr i.ep i.seq (BitVec.ofNat 10 (i.bytes.length - 1)) i.bytes false
       | .inn => mkPkt 4 i.addr i.ep p.inExp[i.ep.toNat] (BitVec.ofNat 10 i.len) [] false
       | .sin => mkPkt 6 i.addr i.ep p.inExp[i.ep.toNat] (BitVec.ofNat 10 i.len) [] false
     let heard : PortSt := { s.port n with misses := 0 }
     (∀ x ∈ (readySplit p.backoff [] p.items).toList, translated s n = true → laneUsed p = false → held s 11 = false →
       (Gives (.itemStart n (some corr)) s fun t =>
         t.xport n = { p with items := x.1 ++ { x.2.1 with onLane := true } :: x.2.2, fsWait := false } ∧
         sends t (packet x.2.1) ∧
         t.dbg = { s.dbg with corr := if x.2.1.isIn then s.dbg.corr else satAdd 0xFFFF s.dbg.corr corr } ∧ others t ∧
         Frame [.xlt, .sent, .dbg] [] s t) ∧
       (x.2.1.isIn = false →
         Gives (.itemStart n none) s fun t =>
           marked (t.xport n) x.2.1.grp = true ∧ x.2.1 ∉ (t.xport n).items ∧ t.sent = s.sent ∧
           t.dbg.uncorr = satInc 0xFFFF s.dbg.uncorr ∧ (t.hdr .xlt).err.getLsbD 3 = true ∧ others t ∧
           Frame [.xlt, .dbg, .free] [.xlt] s t)) ∧
     (translated s n = true → laneUsed p = false → readySplit p.backoff [] p.items = none →
       exec (.itemStart n (some corr)) s = .next s) ∧
     (∀ k : Fin p.items.length,
       let a := p.items.take k.val
       let b := p.items.drop (k.val + 1)
       let i : Item := { p.items[k] with dropped := false }
       let u : State := s.setXport n { p with items := a ++ { i with onLane := true } :: b }
       let again (items : List Item) (t : State) : Prop :=
         (t.xport n).items = items ∧ i.grp ∈ (t.xport n).backoff ∧ others t
       let frame (t : State) : Prop := others t ∧ t.sent = s.sent ∧ Frame [.xlt, .ports] [.xlt] s t
       (∀ x ∈ a ++ b, x.onLane = false) →
       (i.isIn = false →
         Gives (.itemOutcome n .ack) u fun t =>
           (t.xport n).items = a ++ b ∧ (t.xport n).outDone = inc16 p.outDone ∧ (t.xport n).outHalt = p.outHalt ∧
           t.port n = heard ∧ frame t) ∧
       (i.kind ≠ .setup →
         Gives (.itemOutcome n .stall) u fun t =>
           marked (t.xport n) i.grp = true ∧ (∀ x ∈ (t.xport n).items, x.grp ≠ i.grp) ∧ (t.xport n).outDone = p.outDone ∧
           t.port n = heard ∧ frame t) ∧
       (i.kind = .sout →
         Gives (.itemOutcome n .absent) u fun t =>
           again (a ++ b) t ∧ t.xlt.lostCnt = inc16 s.xlt.lostCnt ∧ t.port n = s.port n ∧ frame t) ∧
       (i.kind = .sin → Gives (.itemOutcome n .absent) u fun t => again (a ++ b) t ∧ frame t) ∧
       (i.kind = .out ∨ i.kind = .outz ∨ i.kind = .setup ∨ i.kind = .inn →
         (s.xlt.retryLim = 0 ∨ i.retries + 1 < s.xlt.retryLim →
           Gives (.itemOutcome n .nrdy) u fun t =>
             again (a ++ { i with onLane := false, retries := i.retries + 1 } :: b) t ∧ Frame [.xlt, .ports] [] s t) ∧
         (s.xlt.retryLim ≠ 0 → s.xlt.retryLim ≤ i.retries + 1 →
           Gives (.itemOutcome n .failed) u fun t =>
             (∀ x ∈ (t.xport n).items, x.onLane = false) ∧ i.grp ∈ (t.xport n).backoff ∧ HdrTook s t .xlt
               ((if i.isIn = false ∨ i.stored = true then oneBit (16 + n.val) else 0) |||
                 (if outFree (u.xport n) < outFree (t.xport n) then oneBit n.val else 0)) (oneBit 2) ∧
             frame t)) ∧
       (i.isIn = true → d.length ≤ min 64 (i.len + 1) → i.kind = .sin ∨ q = p.inExp[i.ep.toNat] →
         Gives (.itemOutcome n (.data q d)) u fun t =>
           (t.xport n).items = a ++ { i with onLane := false, stored := true, seq := q, bytes := d } :: b ∧
           (i.kind = .inn → (t.xport n).inExp[i.ep.toNat] = !q ∧ sends t (mkPkt 9 i.addr i.ep q 0 [] false)) ∧
           (i.kind = .sin → (t.xport n).inExp = p.inExp ∧ t.sent = s.sent) ∧
           HdrTook s t .xlt (oneBit (8 + n.val)) 0 ∧ others t ∧ Frame [.xlt, .sent, .ports] [.xlt] s t) ∧
       (i.kind = .inn → d.length ≤ min 64 (i.len + 1) → q ≠ p.inExp[i.ep.toNat] →
         Gives (.itemOutcome n (.data q d)) u fun t =>
           (t.xport n).items = a ++ { i with onLane := false } :: b ∧ sends t (mkPkt 9 i.addr i.ep q 0 [] false) ∧
           others t ∧ Frame [.xlt, .sent, .ports] [] s t)) ∧
     Gives (.backoffEnd n g) s (fun t =>
       t.xport n = { p with backoff := p.backoff.filter (· ≠ g.val) } ∧ others t ∧ Frame [.xlt] [] s t) ∧
     (translated s n = true → p.fsWait = true →
       Gives (.basicFstartQuietWindowStart n) s fun t =>
         t.xport n = { p with fsWait := false } ∧ t.port n = { s.port n with sinceFs := some 0 } ∧
         sends t (mkPkt 12 127 0 false 1 [s.clk.frame.setWidth 8, (s.clk.frame >>> 8).setWidth 8] false) ∧ others t ∧
         Frame [.xlt, .ports, .sent] [] s t)) ∧
  (∀ (s : State) (n : Port) (dir : Fin 4) (k : Nat), Live s .xlt →
     let p := s.xport n
     let w : Word := BitVec.ofNat 32 (n.val + 16 * dir.val)
     let named (i : Item) : Bool := if i.isIn then decide (2 ≤ dir.val) else decide (dir.val = 1 ∨ dir.val = 3)
     let lost (g : Nat) : Prop := ∃ i ∈ p.items, named i = true ∧ i.onLane = false ∧ i.delivered = true ∧ i.grp = g
     (dir = 0 ∨ translated s n = false → Nothing (.xltDrop w) s) ∧
     (dir ≠ 0 → translated s n = true →
       Gives (.xltDrop w) s fun t =>
         (∀ x ∈ p.items, x.onLane = false → named x = false → ¬ lost x.grp → x ∈ (t.xport n).items) ∧
         (∀ x ∈ p.items, x.onLane = false → named x = true ∨ lost x.grp → x ∉ (t.xport n).items) ∧
         (lost k → marked (t.xport n) k = true) ∧
         ((∃ i ∈ (t.xport n).items, i.onLane = true) ↔ ∃ i ∈ p.items, i.onLane = true) ∧
         (∀ m, m ≠ n → t.xport m = s.xport m) ∧ Frame [.xlt] [.xlt] s t))

/-! ### The Jexast channels (11) -/

/-- 11 R294 to R296, R301 and Table 11.10, 04 R87: the end of a line recovery. IDLE joins the bus, with the divider in force, and the
first one after bring-up starts the census that CENAUTO asks for; STUCK and NOIDLE put the channel in Siding with their
error and its strobe high. A channel that is not recovering, or is held, takes none.

11 R274, R279, R288, 12 R312 and 04 R94: an idle bus with no frame of the hub on it takes DIV and LISTEN; an error-passive transmitter then
waits 8 bits. A selection puts a pending census frame on the wire before every buffer, else the candidate, whose attempts it
counts; where the hub starts no frame, the start-of-frame bit of a node ends Idle and the hub receives. The bit is sampled at the next
rising strobe edge. Nothing of its own is sent in LISTEN, off service, during the wait, or while the channel is held. -/
def Obligations.LineRecoveryAndSelection : Prop :=
  (∀ (s : State) (c : Chan) (strobes : Nat), coreRuns s = true →
     let j := s.chan c
     let rec_ (res : BitVec 2) (n : Nat) : Jx := { j with rcvResult := res, rcvStrobes := n, firstRcv := false }
     let stopped (t : State) (res : BitVec 2) (n : Nat) : Prop :=
       (t.chan c).bus = .stopped ∧ (t.hdr (.jx c)).siding = true ∧ (t.chan c).rcvResult = res ∧
       (t.chan c).rcvStrobes = n ∧ (t.chan c).firstRcv = false ∧ (t.chan c).tec = j.tec ∧
       t.clk.strobe[c] = ⟨true, 0, s.clk.divNow[c] / 2⟩ ∧ OtherChan s t c
     (j.bus ≠ .recovery ∨ held s (chanBit c) = true →
       exec (.idle c strobes) s = .next s ∧ exec (.stuck c strobes) s = .next s ∧ exec (.noidle c) s = .next s) ∧
     (j.bus = .recovery → held s (chanBit c) = false →
       (11 ≤ strobes → strobes ≤ 1024 → j.firstRcv = false ∨ j.cenAuto = false →
         Gives (.idle c strobes) s fun t =>
           ChanGets s t c { rec_ 1 strobes with
             bus := .idle, listenNow := j.listen, wasTx := false, rxOpen := false,
             waitBits := if j.wasTx && passive j then 8 else 0 } (oneBit 0) 0 ∧
           t.clk.divNow[c] = s.clk.div[c] ∧ (∀ d, d ≠ c → t.clk.divNow[d] = s.clk.divNow[d]) ∧ t.clk.div = s.clk.div ∧
           Frame [.jx, .clk] [.jx c] s t) ∧
       (11 ≤ strobes → strobes ≤ 1024 → j.firstRcv = true → j.cenAuto = true → active s (.jx c) = true → j.busOff = false →
         j.listen = false → j.cenRun = false →
         Gives (.idle c strobes) s fun t =>
           (t.chan c).bus = .idle ∧ (t.chan c).cenRun = true ∧ (t.chan c).cenPend = true ∧ (t.chan c).cnum = j.cnum + 1 ∧
           (t.chan c).cenTable = [] ∧ OtherChan s t c ∧ Frame [.jx, .clk] [.jx c] s t) ∧
       (160 ≤ strobes → strobes ≤ 1024 →
         Gives (.stuck c strobes) s fun t => stopped t 2 strobes ∧ (t.hdr (.jx c)).err.getLsbD 0 = true) ∧
       Gives (.noidle c) s fun t => stopped t 3 1024 ∧ (t.hdr (.jx c)).err.getLsbD 1 = true)) ∧
  (∀ (s : State) (c : Chan) (i : Inst) (b : Fin 3) (sof : Option (BitVec 24)) (id : BitVec 24), coreRuns s = true →
     let j := s.chan c
     let bit : Prop := hears s c = true ∧ j.bus = .idle ∧ held s (chanBit c) = false
     let may : Prop := j.busOff = false ∧ j.listenNow = false ∧ j.waitBits = 0
     let strobe := s.clk.strobe[c]
     let begun : Jx := { j with
       wasTx := false, waitBits := 0, lateAcc := false, rxOpen := false, rcvWait := false, stamp := none,
       sofAt := s.now + (strobe.half - strobe.ran) + if strobe.high then strobe.half else 0 }
     (hears s c = true → j.wire = .none →
       Gives (.busIdle c) s fun t =>
         ChanGets s t c { j with
           bus := .idle, listenNow := j.listen, wasTx := false, rxOpen := false,
           waitBits := if j.wasTx && passive j then 8 else 0 } 0 0 ∧
         t.clk.divNow[c] = s.clk.div[c] ∧ (∀ d, d ≠ c → t.clk.divNow[d] = s.clk.divNow[d]) ∧
         Frame [.jx, .clk] [] s t) ∧
     (hears s c = false ∨ j.wire ≠ .none → exec (.busIdle c) s = .next s) ∧
     (¬ bit → exec (.selection c sof) s = .next s) ∧
     (bit → may →
       (j.cenPend = true →
         Gives (.selection c sof) s fun t =>
           ChanGets s t c { begun with bus := .transmitting, wire := .census, cenPend := false } 0 0 ∧
           Frame [.jx] [] s t) ∧
       (j.cenPend = false → candidate s c = some (i, bufIx c b) →
         Gives (.selection c sof) s fun t =>
           ChanGets s t c { begun with bus := .transmitting, wire := .buf i b } 0 0 ∧
           (t.inst i).buf (bufIx c b) =
             { (s.inst i).buf (bufIx c b) with state := .wire, att := satInc 255 ((s.inst i).buf (bufIx c b)).att } ∧
           (∀ k, k ≠ bufIx c b → (t.inst i).buf k = (s.inst i).buf k) ∧ (∀ m, m ≠ i → t.inst m = s.inst m) ∧
           Frame [.jx, .mvf] [] s t)) ∧
     (bit → j.wire = .none → ¬ may ∨ (j.cenPend = false ∧ candidate s c = none) →
       Nothing (.selection c none) s ∧
       Gives (.selection c (some id)) s fun t =>
         ChanGets s t c { begun with bus := .receiving, rxId := id, rxOpen := true } 0 0 ∧ Frame [.jx] [] s t))

/-- 12 R314, R315, R318, R323 and Table 12.5 with 11 R279, R283, R286, R289: how an attempt of a buffer ends. SENT is final, counts in
TXOK and lowers TEC; a lost arbitration leaves the buffer FULL, or CANCELLED where that was asked, and the hub receives the frame that
won; an error counts its kind and is final at ERRLIMIT; behind the arbitration field it raises TEC by 8, but not for an ACK error of
an error-passive hub that no dominant bit answers (Table 11.4); before its end it counts in REC. A damaged buffer (01 R30) sets TXECC,
raises TEC by 8 and is final. An ORPHAN is recorded for its channel and freed. Not in Mirror mode. -/
def Obligations.AttemptOutcomes : Prop :=
  ∀ (s : State) (c : Chan) (i : Inst) (b : Fin 3) (e : ErrAt) (id : BitVec 24) (silent : Bool), coreRuns s = true →
    s.mbr.mirNow = false →
    let j := s.chan c
    let k := bufIx c b
    let x := (s.inst i).buf k
    let final (t : State) (st : TxStatus) (errs : Nat) : Prop :=
      (t.inst i).buf k = { x with
        state := .done, canreq := false, status := some st, doneAt := s.stamp, errs := errs } ∧
      (t.inst i).nxt[c] = next3 b
    let others (t : State) : Prop :=
      (∀ m, m ≠ k → (t.inst i).buf m = (s.inst i).buf m) ∧ (∀ m, m ≠ i → t.inst m = s.inst m) ∧ OtherChan s t c
    let frame (t : State) : Prop := others t ∧ Frame attemptParts (.jx c :: attemptBlks) s t
    let erred (t : State) : Prop :=
      ((s.inst i).errlim ≠ 0 → (s.inst i).errlim ≤ x.errs + 1 → x.canreq = false → final t .errlimit (x.errs + 1)) ∧
      (x.canreq = true → final t .cancelled (x.errs + 1)) ∧
      ((s.inst i).errlim = 0 ∨ x.errs + 1 < (s.inst i).errlim → x.canreq = false →
        (t.inst i).buf k = { x with state := .full, errs := x.errs + 1 }) ∧
      (t.chan c).bus = .errorSig ∧ (t.chan c).wire = .none ∧ (t.chan c).errKind = kindCode e.kind ∧
      (t.chan c).errField = e.field ∧ (t.chan c).errBit = e.bit ∧
      (t.chan c).bitCnt = (if e.kind = .bit then inc16 j.bitCnt else j.bitCnt) ∧
      (t.chan c).ackCnt = (if e.kind = .ack then inc16 j.ackCnt else j.ackCnt) ∧ frame t
    (j.wire = .none → exec (.attemptOutcome c .sent) s = .next s) ∧
    (j.wire = .buf i b →
      (x.state = .wire →
        (Gives (.attemptOutcome c .sent) s fun t =>
          final t .sent x.errs ∧ (t.chan c).wire = .none ∧ (t.chan c).wasTx = true ∧ (t.chan c).txOk = inc16 j.txOk ∧
          (t.chan c).tec = (if j.busOff || j.listenNow then j.tec else j.tec - 1) ∧ frame t) ∧
        (Gives (.attemptOutcome c (.arbLost id)) s fun t =>
          (x.canreq = true → final t .cancelled x.errs) ∧ (x.canreq = false → (t.inst i).buf k = { x with state := .full }) ∧
          t.chan c = { j with
            wire := .none, bus := .receiving, rxId := id, rxOpen := true, arbLost := inc16 j.arbLost } ∧ frame t) ∧
        (j.busOff = false → j.listenNow = false → j.tec + 8 ≤ 255 → 2 ≤ e.field.toNat →
          ¬ (e.kind = .ack ∧ passive j = true ∧ silent = true) →
          Gives (.attemptOutcome c (.error e silent)) s fun t =>
            erred t ∧ (t.chan c).tec = j.tec + 8 ∧ (t.chan c).recv = j.recv ∧ (t.chan c).errRole = true ∧
            (t.chan c).wasTx = true) ∧
        (2 ≤ e.field.toNat → e.kind = .ack → passive j = true →
          Gives (.attemptOutcome c (.error e true)) s fun t => erred t ∧ (t.chan c).tec = j.tec ∧ (t.chan c).recv = j.recv) ∧
        (j.busOff = false → j.listenNow = false → e.field.toNat < 2 →
          Gives (.attemptOutcome c (.error e silent)) s fun t =>
            erred t ∧ (t.chan c).tec = j.tec ∧ (t.chan c).recv = satInc 255 j.recv ∧ (t.chan c).errRole = false ∧
            (t.chan c).wasTx = false) ∧
        (j.busOff = false → j.listenNow = false → j.tec + 8 ≤ 255 →
          Gives (.attemptOutcome c .damaged) s fun t =>
            (x.canreq = true → final t .cancelled x.errs) ∧ (x.canreq = false → final t .damaged x.errs) ∧
            (t.chan c).wire = .none ∧ (t.chan c).bus = .errorSig ∧ (t.chan c).tec = j.tec + 8 ∧
            HdrTook s t (.mvf i) 0 (oneBit 0) ∧ frame t)) ∧
      (x.state = .orphan →
        Gives (.attemptOutcome c .sent) s fun t =>
          (t.inst i).buf k = {} ∧ t.mbr.wireRec[c] = ⟨true, true, i, b, x.id⟩ ∧ HdrTook s t .mbr (oneBit 1) 0 ∧
          HdrTook s t (.mvf i) (oneBit 2) 0 ∧ frame t))

/-- 11 R284, R289 to R293, Tables 11.3 and 11.4: an error detected with no frame of the hub on the wire raises REC, which saturates
at 255, and discards the frame; a receiver detects no bit or ACK error. A late error comes after the acceptance, which counts first.
A transmitter whose TEC passes 255 is bus-off. RECOVER starts the recovery, whose end after 128 runs clears both counters; AUTORCV
starts it at once. The failing filter words of a discarded frame are recorded apart (13 R339); here there is none. -/
def Obligations.ErrorsAndBusOff : Prop :=
  ∀ (s : State) (c : Chan) (e : ErrAt) (bad : List (Fin 512)), Live s (.jx c) → s.parBad = [] →
    let j := s.chan c
    let receiver : Prop := hears s c = true ∧ j.wire = .none ∧ e.kind ≠ .bit ∧ e.kind ≠ .ack ∧ j.wasTx = false
    let late : Prop :=
      e.kind = .form ∧ (e.field = 7 ∨ e.field = 8) ∧ j.rxOpen = true ∧ j.bus ≠ .errorSig
    let rec0 (isLate : Bool) : Nat :=
      if j.busOff || j.listenNow then j.recv
      else satInc 255 (if isLate = true ∧ j.lateAcc = false then (if 128 ≤ j.recv then 120 else j.recv - 1) else j.recv)
    let noted (t : State) : Prop :=
      (t.chan c).bus = .errorSig ∧ (t.chan c).errKind = kindCode e.kind ∧ (t.chan c).errRole = false ∧
      (t.chan c).errField = e.field ∧ (t.chan c).errBit = e.bit ∧ (t.chan c).tec = j.tec ∧
      (t.chan c).stuffCnt = (if e.kind = .stuff then inc16 j.stuffCnt else j.stuffCnt) ∧
      (t.chan c).crcCnt = (if e.kind = .crc then inc16 j.crcCnt else j.crcCnt) ∧
      (t.chan c).formCnt = (if e.kind = .form then inc16 j.formCnt else j.formCnt) ∧ OtherChan s t c
    (receiver → ¬ late →
      Gives (.errorDetected c e []) s fun t =>
        noted t ∧ (t.chan c).recv = rec0 false ∧ (j.lateAcc = false → (t.chan c).rxOpen = (j.rxOpen && j.bus == .errorSig)) ∧
        (t.chan c).rxOk = j.rxOk ∧
        (t.hdr (.jx c)).evtPnd = (s.hdr (.jx c)).evtPnd ||| ((s.hdr (.jx c)).evtEn &&&
          ((if passive j = false ∧ passive (t.chan c) = true then oneBit 1 else 0) ||| evtRaw t (.jx c))) ∧
        Frame [.jx] [.jx c] s t) ∧
    (receiver → late → j.lateAcc = false →
      Gives (.errorDetected c e bad) s fun t =>
        noted t ∧ (t.chan c).recv = rec0 true ∧ (t.chan c).rxOpen = true ∧ (t.chan c).lateAcc = true ∧
        (t.chan c).rxOk = inc16 j.rxOk ∧ Frame [.jx] [.jx c] s t) ∧
    (hears s c = true → j.wire = .none → e.kind ≠ .bit → e.kind ≠ .ack → j.wasTx = true → j.busOff = false →
      j.listenNow = false → 255 < j.tec + 8 →
      Gives (.errorDetected c e bad) s fun t =>
        (t.chan c).busOff = true ∧ (t.chan c).counting = j.autoRcv ∧ (t.chan c).tec = 256 ∧ (t.chan c).boCnt = inc16 j.boCnt ∧
        (t.hdr (.jx c)).err.getLsbD 2 = true ∧ OtherChan s t c) ∧
    (e.kind = .bit ∨ e.kind = .ack ∨ hears s c = false → exec (.errorDetected c e bad) s = .next s) ∧
    (j.busOff = true → j.counting = false →
      Gives (.recover c) s fun t => ChanGets s t c { j with counting := true, runs := 0, recs := 0 } 0 0 ∧ Frame [.jx] [] s t) ∧
    (j.busOff = false ∨ j.counting = true → Nothing (.recover c) s) ∧
    (hears s c = true → j.busOff = true → j.counting = true →
      (128 ≤ j.runs →
        Gives (.busOffRecoveryComplete c) s fun t =>
          ChanGets s t c { j with busOff := false, counting := false, runs := 128, tec := 0, recv := 0 } (oneBit 3) 0 ∧
          Frame [.jx] [.jx c] s t) ∧
      (j.runs < 128 → exec (.busOffRecoveryComplete c) s = .next s))

/-- 11 R284, R290, R298 to R301 and Table 11.9: the census. CENSTART is ignored with event 6 where R301 says so (for LISTEN, log 21), else
it clears the table and sends the first frame; a response, a frame with the identifier 1 that the channel holds, enters the table and
is marked, the 33rd ends the census with OVF; a late error of it raises LATEERR; an errored one is
asked again up to CENRETRY times; silence ends it complete; CENSTOP ends it with ABORT. A HELLO of 8 bytes records its
node. -/
def Obligations.Census : Prop :=
  ∀ (s : State) (c : Chan) (uid : BitVec 48) (info : Half) (len : Nat), Live s (.jx c) →
    let j := s.chan c
    let ended (t : State) (j' : Jx) : Prop :=
      ChanGets s t c { j' with cenRun := false, cenPend := false, cenLook := false } (oneBit 4) 0 ∧ Frame [.jx] [.jx c] s t
    let refused : Prop :=
      j.cenRun = true ∨ active s (.jx c) = false ∨ j.bus = .stopped ∨ j.bus = .recovery ∨ j.busOff = true ∨
      j.listen = true ∨ j.listenNow = true
    let looks : Prop := hears s c = true ∧ j.cenRun = true ∧ j.cenLook = true
    let open_ : Prop := j.rxOpen = true ∧ (j.bus ≠ .errorSig ∨ j.lateAcc = true) ∧ j.rxId = 1
    let taken (t : State) : Prop :=
      (t.chan c).rxOpen = false ∧ (t.chan c).bus = .receiving ∧ (t.chan c).lateAcc = false ∧
      (t.chan c).rxOk = (if j.lateAcc then j.rxOk else inc16 j.rxOk) ∧
      (j.lateAcc = true → (s.hdr (.jx c)).evtEn.getLsbD 7 = true → (t.hdr (.jx c)).evtPnd.getLsbD 7 = true) ∧
      OtherChan s t c ∧ Frame [.jx] [.jx c] s t
    (refused → Gives (.censtart c) s fun t => ChanGets s t c j (oneBit 6) 0 ∧ Frame [] [.jx c] s t) ∧
    (¬ refused →
      Gives (.censtart c) s fun t =>
        ChanGets s t c { j with
          cnum := j.cnum + 1, cenTable := [], cenDone := false, cenIncomplete := false, cenOvf := false,
          cenAbort := false, cenRun := true, cenTries := 0, cenLast := .census, cenPend := true, cenLook := false } 0 0 ∧
        Frame [.jx] [] s t) ∧
    (j.cenRun = true → Gives (.censtop c) s fun t => ended t { j with cenAbort := true }) ∧
    (j.cenRun = false → Nothing (.censtop c) s) ∧
    (¬ open_ → exec (.censusResponse c (some (uid, info))) s = .next s) ∧
    (looks →
      (open_ → j.cenTable.length < 32 →
        Gives (.censusResponse c (some (uid, info))) s fun t =>
          (t.chan c).cenTable = j.cenTable ++ [⟨uid, info⟩] ∧ (t.chan c).cenLast = .mark uid ∧ (t.chan c).cenPend = true ∧
          (t.chan c).cenLook = false ∧ (t.chan c).cenTries = 0 ∧ (t.chan c).cenRun = true ∧ taken t) ∧
      (open_ → 32 ≤ j.cenTable.length →
        Gives (.censusResponse c (some (uid, info))) s fun t =>
          (t.chan c).cenTable = j.cenTable ∧ (t.chan c).cenRun = false ∧ (t.chan c).cenDone = true ∧
          (t.chan c).cenOvf = true ∧ (t.chan c).cenIncomplete = true ∧ taken t) ∧
      (j.cenTries + 1 ≤ j.cenRetry →
        Gives (.censusResponse c none) s fun t =>
          ChanGets s t c { j with
            cenIncomplete := true, cenTries := j.cenTries + 1, cenPend := true, cenLook := false } 0 0 ∧
          Frame [.jx] [] s t) ∧
      (j.cenRetry < j.cenTries + 1 →
        Gives (.censusResponse c none) s fun t =>
          ended t { j with cenIncomplete := true, cenTries := j.cenTries + 1, cenAbort := true }) ∧
      Gives (.cendone c) s (fun t => ended t { j with cenDone := true })) ∧
    (hears s c = true → j.bus ≠ .errorSig ∨ j.lateAcc = true →
      Gives (.hello c 8 uid info) s (fun t =>
        ChanGets s t c { j with
          helloUid := uid, helloInfo := info, cenIncomplete := j.cenIncomplete || j.cenRun } (oneBit 5) 0 ∧
        Frame [.jx] [.jx c] s t) ∧
      (len ≠ 8 → Gives (.hello c len uid info) s fun t => ChanGets s t c j (oneBit 8) 0 ∧ Frame [] [.jx c] s t))

/-! ### The transmit side of the bridge (12) -/

/-- 12 R306, R307, R321: SUBMIT. It is refused for a reserved ID, a LEN above 64, a buffer that is not FREE, an instance or a
bridge out of service, or BUF 3 (log 20: the lowest number where several hold); else the frame of TXHDR and TXDATA is in the
named buffer, FULL with its counts at 0, and FILL stands behind it; in Mirror mode both copies of the pair are filled. -/
def Obligations.TxSubmit : Prop :=
  ∀ (s : State) (i : Inst) (c : Chan) (b : Fin 3) (ctag : Byte), Live s (.mvf i) →
    let m := s.inst i
    let sub : Instr := .submit i c (BitVec.ofNat 2 b.val) ctag
    let refused (cmd : Instr) (r : BitVec 4) : Prop :=
      Gives cmd s fun t => Rejects s t i m false r ctag 0 0 ∧ Frame [.mvf] [.mvf i] s t
    let legal : Prop := 4 ≤ m.hdrId.toNat ∧ m.hdrLen.toNat ≤ 64
    let named (k : Fin 6) : Prop := k = bufIx c b ∨ (s.mbr.mirNow = true ∧ k.val % 3 = b.val)
    let free : Prop := ∀ k, named k → (m.buf k).state = .free
    (m.hdrId.toNat < 4 → refused sub 1) ∧
    (4 ≤ m.hdrId.toNat → 64 < m.hdrLen.toNat → refused sub 2) ∧
    (legal → ¬ free → refused sub 3) ∧
    (legal → free → ¬ Serves s i → (s.hdr .mbr).siding = false → refused sub 4) ∧
    (legal → Serves s i → refused (.submit i c 3 ctag) 5) ∧
    (legal → free → Serves s i →
      Gives sub s fun t =>
        (∀ k, named k →
          let x := (t.inst i).buf k
          x = { state := .full, id := m.hdrId, data := x.data, ctag := ctag, fullAt := s.stamp } ∧
          x.data.length = m.hdrLen.toNat ∧
          ∀ j : Fin 64, j.val < m.hdrLen.toNat →
            x.data.getD j.val 0 = (m.txData.toList.getD (j.val / 4) 0).extractLsb' (8 * (j.val % 4)) 8) ∧
        (∀ k, ¬ named k → (t.inst i).buf k = m.buf k) ∧
        (∀ d : Chan, (t.inst i).fill[d].val =
          if d = c ∨ s.mbr.mirNow = true then (b.val + 1) % 3 else m.fill[d].val) ∧
        t.inst i = { m with bufs := (t.inst i).bufs, fill := (t.inst i).fill } ∧
        (∀ j, j ≠ i → t.inst j = s.inst j) ∧ Frame [.mvf, .stamp] [] s t)

/-- 12 R318, R321 and Table 12.11: CANCEL of a buffer, or in Mirror mode of a pair, and CANCEL_ALL. A FULL buffer is DONE with
status CANCELLED and NXT stands behind it; a WIRE buffer keeps running with CANREQ; FREE, DONE and ORPHAN buffers stay as
they are. CANCEL with BUF 3 is refused with reason 5 (log 20), and FLUSH discards and counts the staged records.

12 R322: a copy that is FULL on a channel out of service is freed without a record when its sibling on the other channel
reaches its outcome, and MIRDROP counts it. -/
def Obligations.TxCancel : Prop :=
  (∀ (s : State) (i : Inst) (c : Chan) (b : Fin 3) (all : Bool), Live s (.mvf i) →
     let m := s.inst i
     let named (k : Fin 6) : Prop := all = true ∨ k = bufIx c b ∨ (s.mbr.mirNow = true ∧ k.val % 3 = b.val)
     let cmd : Instr := if all then .cancelAll i else .cancel i c (BitVec.ofNat 2 b.val)
     ((s.mbr.mirNow = true → ∀ d, inSvc s d = true) →
       Gives cmd s fun t =>
         (∀ k, (t.inst i).buf k =
           if named k ∧ (m.buf k).state = .full then
             { m.buf k with
               state := .done, canreq := false, status := some .cancelled, doneAt := ((t.inst i).buf k).doneAt }
           else if named k ∧ (m.buf k).state = .wire then { m.buf k with canreq := true }
           else m.buf k) ∧
         (∀ k, named k → (m.buf k).state = .full → s.stamp ≤ ((t.inst i).buf k).doneAt) ∧
         (∀ d : Chan, (∀ k, named k → bufChan k = d → (m.buf k).state ≠ .full) → (t.inst i).nxt[d] = m.nxt[d]) ∧
         (∀ k, named k → (m.buf k).state = .full →
           (∀ j : Fin 6, k < j → bufChan j = bufChan k → ¬ (named j ∧ (m.buf j).state = .full)) →
           (t.inst i).nxt[bufChan k].val = (k.val + 1) % 3) ∧
         t.inst i = { m with bufs := (t.inst i).bufs, nxt := (t.inst i).nxt } ∧
         (∀ j, j ≠ i → t.inst j = s.inst j) ∧ Frame [.mvf, .stamp] [] s t) ∧
     Gives (.cancel i c 3) s (fun t => Rejects s t i m false 5 0 0 0 ∧ Frame [.mvf] [.mvf i] s t) ∧
     Gives (.flush i) s (fun t =>
       InstGets s t i { m with staging := [], flushed := min 255 (m.flushed + m.staging.length) } 0 0 ∧ Frame [.mvf] [] s t)) ∧
  (∀ (s : State) (i : Inst) (b : Fin 3) (c : Chan), Live s (.mvf i) → s.mbr.mirNow = true →
     let m := s.inst i
     let k := bufIx c b
     let o := sibling k
     (s.chan c).wire = .buf i b → (m.buf k).state = .wire → (m.buf o).state = .full →
     inSvc s (bufChan o) = false → (s.chan c).busOff = false → inSvc s c = true →
     (∀ j, ∀ x, j ≠ i ∨ (x ≠ k ∧ x ≠ o) → ((s.inst j).buf x).state = .free) →
       Gives (.attemptOutcome c .sent) s fun t =>
         (t.inst i).buf o = {} ∧ ((t.inst i).buf k).state = .done ∧ ((t.inst i).buf k).status = some .sent ∧
         ((t.inst i).buf k).att = min 255 ((m.buf k).att + (m.buf o).att) ∧ t.mbr.mirdrop = inc16 s.mbr.mirdrop ∧
         HdrTook s t .mbr (oneBit 2) 0 ∧ HdrTook s t (.mvf i) (oneBit 2) 0 ∧ (∀ j, j ≠ i → t.inst j = s.inst j))

/-- 12 R309, R323, R329 and 07 R181, Table 7.7: what the TX endpoint answers. Nothing for more than 512 bytes, whatever its state, or while
the function is not configured; STALL from the wrapper or while halted; ACK for a repeat, which stages nothing; NRDY while the instance or the
bridge is disabled or staging has too few bytes free; else ACK, and the payload is staged.

12 R308, R310 and Table 12.3: an accepted payload of a record and a rest. A record with LEN above 64 or cut off ends
parsing with reason 6; one that breaks a "must be 0" rule, or names a reserved ID, is refused alone with reason 6 or 1; any
other is staged with its fields. The rest is parsed as a payload by itself. A payload too short for a record is refused with
reason 6 (the tag of one without its tag byte is free, log 4). -/
def Obligations.TxBulkRecords : Prop :=
  (∀ (s : State) (i : Inst) (seq : Bool) (p : List Byte), Heard s .bridge →
     let k := epOut i
     let e := s.bep k
     let ep : BitVec 4 := BitVec.ofNat 4 (3 * i.val + 1)
     let c : Instr := .bulkOut i seq p
     let quiet (t : State) : Prop := t.bep k = { e with ackable := false } ∧ Frame hostParts [] s t
     let wall : Prop := (s.hdr (.mvf i)).inrst = true ∨ (s.hdr .mbr).inrst = true ∨ siding s (.mvf i) = true
     let used := ((s.inst i).staging.map fun r => 8 + 4 * ((r.data.length + 3) / 4)).sum
     let room : Prop := (s.hdr (.mvf i)).en = true ∧ (s.hdr .mbr).en = true ∧ used + p.length ≤ 2048
     (s.hub.brConf = false ∨ 512 < p.length → Gives c s fun t => t.answer = none ∧ quiet t) ∧
     (s.hub.brConf = true → p.length ≤ 512 →
       (wall ∨ e.halted = true → Gives c s fun t => Says s t .bridge .stall ep seq ∧ quiet t) ∧
       (¬ wall → e.halted = false →
         (e.fresh = false → seq ≠ e.seq →
           Gives c s fun t =>
             Says s t .bridge .ack ep seq ∧ t.bep k = { e with ackable := false } ∧ HdrTook s t .upl (oneBit 2) 0 ∧
             Frame hostParts [.upl] s t) ∧
         (e.fresh = true ∨ seq = e.seq →
           (¬ room → Gives c s fun t => Says s t .bridge .nrdy ep seq ∧ quiet t) ∧
           (room →
             Gives c s fun t =>
               Says s t .bridge .ack ep seq ∧ t.bep k = { e with seq := !seq, fresh := false, ackable := false } ∧
               (t.inst i).bufs = (s.inst i).bufs ∧ (t.inst i).cq = (s.inst i).cq ∧
               (s.inst i).staging <+: (t.inst i).staging ∧ (p = [] → t.inst i = s.inst i) ∧
               (∀ j, j ≠ i → t.inst j = s.inst j) ∧ Frame (.mvf :: .free :: hostParts) [.mvf i] s t))))) ∧
  (∀ (s : State) (i : Inst) (w0 w1 : Word) (data pad rest : List Byte),
     let rec_ : List Byte := wordBytes w0 ++ wordBytes w1 ++ data ++ pad
     let len := (w0.extractLsb' 24 7).toNat
     let id := w0.extractLsb' 0 24
     let tag := w1.extractLsb' 8 8
     let m := s.inst i
     let refused (u : State) (r : BitVec 4) : Prop :=
       u.inst i = { m with rejTag := tag, rejSrc := true, rejReason := r, rejCnt := inc16 m.rejCnt } ∧
       u.hdr (.mvf i) = { s.hdr (.mvf i) with
         evtPnd := (s.hdr (.mvf i)).evtPnd ||| ((s.hdr (.mvf i)).evtEn &&& oneBit 1),
         evtNew := (s.hdr (.mvf i)).evtNew ||| ((s.hdr (.mvf i)).evtEn &&& oneBit 1) }
     let broken : Prop := w0.getLsbD 31 = true ∨ w1.extractLsb' 3 5 ≠ 0 ∨ w1.extractLsb' 16 16 ≠ 0
     (64 < len ∨ data.length + pad.length < 4 * ((len + 3) / 4) →
       refused (stageAll s i (rec_ ++ if 64 < len then rest else [])) 6) ∧
     (0 < rest.length → rest.length < 8 →
       (stageAll s i rest).inst i = { m with
         rejTag := if rest.length < 6 then (Config.freeWord s.free).setWidth 8 else rest.getD 5 0, rejSrc := true,
         rejReason := 6, rejCnt := inc16 m.rejCnt }) ∧
     (len ≤ 64 → data.length = len → pad.length = (4 - len % 4) % 4 →
       (broken → refused (stageAll s i rec_) 6 ∧ stageAll s i (rec_ ++ rest) = stageAll (stageAll s i rec_) i rest) ∧
       (¬ broken → id.toNat < 4 →
         refused (stageAll s i rec_) 1 ∧ stageAll s i (rec_ ++ rest) = stageAll (stageAll s i rec_) i rest) ∧
       (¬ broken → 4 ≤ id.toNat →
         (stageAll s i rec_).inst i = { m with staging := m.staging ++
           [⟨id, data, if w1.getLsbD 0 then 1 else 0, w1.extractLsb' 1 2, tag⟩] } ∧
         stageAll s i (rec_ ++ rest) = stageAll (stageAll s i rec_) i rest)))

/-- 12 R311, R321 and Table 12.10: the head record of staging. It moves into the buffer it names if that is FREE, or with BUF 3
into the lowest FREE buffer, in buffer-number order the first one from FILL on; it waits while it can take none, while the
instance is not served, and while MBR is held. Corrected words of it are counted; a damaged one is refused with reason 7, and TXECC is
set.

12 R316, R317, R321, R322 and Tables 12.6, 12.10: the DONE buffer whose status was reached first enters the queue of eight,
becomes FREE and raises TXDONE and TXFREE; a SENT one is counted. In Mirror mode the record is that of the pair. With a full
queue, or without a DONE buffer, nothing happens. A read of TXCOMP takes the oldest record away. -/
def Obligations.TxStagingAndCompletion : Prop :=
  (∀ (s : State) (i : Inst) (r : TxRec) (b : Fin 3) (corr : Nat), coreRuns s = true →
     let m := s.inst i
     let l := m.staging
     let c : Chan := if s.mbr.mirNow = true then 0 else r.chan
     let free (x : Fin 3) : Prop :=
       (m.buf (bufIx c x)).state = .free ∧ (s.mbr.mirNow = true → (m.buf (bufIx 1 x)).state = .free)
     let ring : Prop := (if s.mbr.mirNow = true ∨ c = 0 then m.ordA else m.ordB) = true
     let rank (x : Fin 3) : Nat := if ring then (x.val + 3 - m.fill[c].val) % 3 else x.val
     let takes (x : Fin 3) : Prop :=
       free x ∧ (r.buf = 3 → ∀ y, free y → rank x ≤ rank y) ∧ (r.buf ≠ 3 → r.buf.toNat = x.val)
     let may : Prop := Serves s i ∧ held s 14 = false
     (l = [] ∨ ¬ may → exec (.stagedRecordMove i none) s = .next s ∧
       exec (.stagedRecordMove i (some corr)) s = .next s) ∧
     (l.head? = some r → may →
       ((∀ x, ¬ takes x) → Nothing (.stagedRecordMove i (some corr)) s) ∧
       (takes b →
         Gives (.stagedRecordMove i (some corr)) s fun t =>
           (∀ k, (t.inst i).buf k =
             if k = bufIx c b ∨ (s.mbr.mirNow = true ∧ k.val % 3 = b.val) then
               { state := .full, id := r.id, data := r.data, ctag := r.ctag, fullAt := s.stamp }
             else m.buf k) ∧
           (∀ d : Chan, (t.inst i).fill[d].val =
             if d = c ∨ s.mbr.mirNow = true then (b.val + 1) % 3 else m.fill[d].val) ∧
           t.inst i = { m with bufs := (t.inst i).bufs, fill := (t.inst i).fill, staging := l.tail } ∧
           t.dbg = { s.dbg with corr := satAdd 0xFFFF s.dbg.corr corr } ∧
           (∀ j, j ≠ i → t.inst j = s.inst j) ∧ Frame [.mvf, .stamp, .dbg] [] s t) ∧
       Gives (.stagedRecordMove i none) s fun t =>
         Rejects s t i { m with staging := l.tail } true 7 r.ctag 0 (oneBit 0) ∧
         t.dbg = { s.dbg with uncorr := satInc 0xFFFF s.dbg.uncorr, lastUnc := true, lastAddr := t.dbg.lastAddr } ∧
         Frame [.mvf, .dbg, .free] [.mvf i] s t)) ∧
  (∀ (s : State) (i : Inst) (k : Fin 6), coreRuns s = true →
     let m := s.inst i
     let o := sibling k
     let enters (r : CRec) (bufs : Fin 6 → TxBuf) : Prop :=
       Gives (.completionQueueEntry i) s fun t =>
         (∀ j, (t.inst i).buf j = bufs j) ∧
         t.inst i = { m with
           bufs := (t.inst i).bufs, cq := m.cq ++ [r],
           sentCnt := if r.status = .sent then inc16 m.sentCnt else m.sentCnt } ∧
         (∀ j, j ≠ i → t.inst j = s.inst j) ∧ HdrTook s t (.mvf i) (oneBit 0 ||| oneBit 2) 0 ∧ Frame [.mvf] [.mvf i] s t
     let a := m.buf k
     let z := m.buf o
     let has (st : TxStatus) : Prop := a.status = some st ∨ z.status = some st
     (8 ≤ m.cq.length ∨ (∀ j, (m.buf j).state ≠ .done) → exec (.completionQueueEntry i) s = .next s) ∧
     (m.cq.length < 8 → s.mbr.mirNow = false → a.state = .done → a.status.isSome = true →
       (∀ j, j ≠ k → (m.buf j).state = .done → a.doneAt < (m.buf j).doneAt) →
       enters
         ⟨a.status.getD .sent, false, bufNum k, bufChan k, a.ctag, a.att, decide (a.status = some .sent ∧ k.val < 3),
           decide (a.status = some .sent ∧ 3 ≤ k.val)⟩
         fun j => if j = k then {} else m.buf j) ∧
     (m.cq.length < 8 → s.mbr.mirNow = true → k.val < 3 → a.state = .done → z.state = .done →
       (∀ j, j ≠ k → j ≠ o → (m.buf j).state = .free) →
       enters
         ⟨if has .sent then .sent else if has .cancelled then .cancelled else if has .damaged then .damaged else .errlimit,
           false, bufNum k, 0, a.ctag, min 255 (a.att + z.att), decide (a.status = some .sent), decide (z.status = some .sent)⟩
         fun j => if j = k ∨ j = o then {} else m.buf j) ∧
     ((s.hdr (.mvf i)).inrst = false →
       Gives (.txcompRead i) s fun t => InstGets s t i { m with cq := m.cq.tail } 0 0 ∧ Frame [.mvf] [] s t))

/-! ### The receive side of the bridge (13) -/

/-- 11 R284, R285, R291 and R297, 13 R332 to R334 and R336 to R341, R361: the hand-over of a frame that no duplicate check
looks at and that the channel holds, with a CRC that matches (11 R281). The channel counts it, with its late error; the identifiers 0, 1 and 3 are discarded with RSVID. Else it takes the sequence number, the
first matching entry or the default action decides it, a frame that no instance receives counts in REJ, and each accepting
instance gains an entry, or loses the frame where it keeps none or R341 gives it none. A frame damaged in the receive buffer
is lost for every accepting instance. A failing filter word does not match, and is recorded (R339); under the fixed class its
source fences the channel before the frame is accepted (the model's reading, log 40).

11 R281, R285, R290, R294 and 04 R94: a frame is handed over only while the core runs, the channel receives and holds it, with at most 64 bytes
and a CRC that matches. Its timestamp is the cell time of the lk that sampled its start-of-frame bit. -/
def Obligations.RxHandOver : Prop :=
  (∀ (s : State) (c : Chan) (f : RxFrame) (o : Option (Fin 256)) (a : BitVec 11) (i : Inst), coreRuns s = true →
     hears s c = true → (s.chan c).rxOpen = true → (s.chan c).bus ≠ .errorSig ∨ (s.chan c).lateAcc = true →
     f.data.length ≤ 64 → f.crc = crc21 (s.chan c).rxId f.data → passive (s.chan c) = false →
     let j := s.chan c
     let id := j.rxId
     let counted (t : State) : Prop :=
       t.chan c = { j with
         bus := .receiving, wasTx := false, lateAcc := false, rxOpen := false, rxOk := if j.lateAcc then j.rxOk else inc16 j.rxOk,
         recv := if j.lateAcc ∨ j.busOff = true ∨ j.listenNow = true then j.recv else j.recv - 1 } ∧
       (∀ d, d ≠ c → t.chan d = s.chan d)
     let reserved : Prop := id = 0 ∨ id = 1 ∨ id = 3
     let late : Word := if j.lateAcc then oneBit 7 else 0
     let seq1 := s.mbr.seq.set c.val (s.mbr.seq[c] + 1) c.isLt
     let rej1 := s.mbr.rej.set c.val (inc16 s.mbr.rej[c]) c.isLt
     let dup1 := if j.lateAcc then s.mbr.dup.set c.val (some ⟨id, f.data, f.crc, s.now, true⟩) c.isLt else s.mbr.dup
     let lost1 := s.mbr.lost.set i.val (inc16 s.mbr.lost[i]) i.isLt
     (reserved →
       Gives (.frameHandOver c f) s fun t =>
         counted t ∧ HdrTook s t (.jx c) (late ||| oneBit 8) 0 ∧ Frame [.jx] [.jx c] s t) ∧
     (¬ reserved → Decided s c f o a → s.mbr.mirNow = false → a.extractLsb' 7 2 = 0 →
       ((∀ n, accepts a n = false) → f.damaged = false →
         Gives (.frameHandOver c f) s fun t =>
           counted t ∧ HdrTook s t (.jx c) late 0 ∧ t.mvf = s.mvf ∧
           PoolMoved s t { s.mbr with seq := seq1, rej := rej1, dup := dup1 } 0 0 ∧ Frame handOverParts [.jx c, .mbr] s t) ∧
       ((∃ n, accepts a n = true) → f.damaged = false → RoomForAll s a →
         Gives (.frameHandOver c f) s fun t =>
           counted t ∧ HdrTook s t (.jx c) late 0 ∧
           (∀ n, accepts a n = true → ∃ x ∈ (t.inst n).rx.getLast?, Gains s t n (entryOf s c f o a false false n x.arr)) ∧
           (∀ n, accepts a n = false → t.inst n = s.inst n) ∧
           PoolMoved s t { s.mbr with seq := seq1, dup := dup1 } 0 0 ∧ Frame handOverParts [.jx c, .mbr] s t) ∧
       (accepts a i = true → (∀ n, n ≠ i → accepts a n = false) → f.damaged = false →
         (Keeps s i → Room s i →
           Gives (.frameHandOver c f) s fun t =>
             Gains s t i (entryOf s c f o a false false i s.stamp) ∧
             PoolMoved s t { s.mbr with seq := seq1, dup := dup1 } 0 0) ∧
         ((Keeps s i ∧ ¬ Room s i) ∨
             (¬ Keeps s i ∧ (s.hdr (.mvf i)).inrst = false ∧ (s.hdr .mbr).inrst = false) →
           Gives (.frameHandOver c f) s fun t =>
             Loses s t i ∧ (∀ n, n ≠ i → t.inst n = s.inst n) ∧
             PoolMoved s t { s.mbr with seq := seq1, dup := dup1, lost := lost1 } 0 0 ∧
             HdrTook s t (.mvf i) (oneBit 10) 0 ∧ Frame handOverParts [.jx c, .mbr, .mvf i] s t)) ∧
       (accepts a i = true → (∀ n, n ≠ i → accepts a n = false) → f.damaged = true →
         Gives (.frameHandOver c f) s fun t =>
           Loses s t i ∧ (∀ n, n ≠ i → t.inst n = s.inst n) ∧
           t.mbr = { s.mbr with seq := seq1, dup := dup1, lost := lost1 } ∧ HdrTook s t .mbr 0 (oneBit 0) ∧
           HdrTook s t (.mvf i) (oneBit 10) 0 ∧ Frame [.jx, .mbr, .mvf] [.jx c, .mbr, .mvf i] s t)) ∧
     (∀ x, ¬ reserved → f.badWords = [x] → s.parBad = [] → (∀ w ∈ s.flmOld, w.at_ < evalLk s c) →
       (∀ k : Fin 256, k.val < x.val / 2 → ¬ FilterMatches s c id k.val) →
       let kx : Fin 21 := if c = 0 then 9 else 10
       let found (t : State) : Prop :=
         t.mvf = s.mvf ∧ (t.chan c).flmCnt = inc16 j.flmCnt ∧ (t.chan c).flmWord = BitVec.ofNat 9 x.val ∧
         t.parBad = [0x3000 + 0x800 * c.val + 4 * x.val]
       (s.flt.src.getLsbD kx.val = false → s.flt.mode.getLsbD kx.val = false →
         Gives (.frameHandOver c f) s fun t =>
           found t ∧ t.mbr = s.mbr ∧ (t.chan c).rxOk = j.rxOk ∧ HdrTook s t (.jx c) 0 (oneBit 3) ∧
           Frame [.jx, .parBad] [.jx c] s t) ∧
       (s.flt.mode.getLsbD kx.val = true → (s.hdr (.jx c)).sev.toNat < 2 → f.damaged = false →
         (∀ k : Fin 256, x.val / 2 < k.val → ¬ FilterMatches s c id k.val) → s.mbr.mirNow = false → s.mbr.defAct[c] = 0 →
         Gives (.frameHandOver c f) s fun t => found t ∧ t.mbr.rej = rej1 ∧ HdrTook s t (.jx c) late (oneBit 3)))) ∧
  (∀ (s : State) (c : Chan) (f : RxFrame),
     (coreRuns s = false ∨ hears s c = false ∨ 64 < f.data.length ∨ (s.chan c).rxOpen = false ∨
         ((s.chan c).bus = .errorSig ∧ (s.chan c).lateAcc = false) ∨ f.crc ≠ crc21 (s.chan c).rxId f.data →
       exec (.frameHandOver c f) s = .next s) ∧
     (∀ st ∈ (s.chan c).stamp.toList, ((heardFrame s c f).frame ++ (heardFrame s c f).lk : BitVec 31) = st) ∧
     ((s.chan c).stamp = none → (s.chan c).sofAt ≤ s.now →
       ((heardFrame s c f).frame ++ (heardFrame s c f).lk : BitVec 31) =
         (s.clk.frame ++ s.clk.lk) - BitVec.ofNat 31 (s.now - (s.chan c).sofAt)))

/-- 13 R359, R360 and 01 R30: duplicates. A frame equal to the live copy of its channel, within 1,298 bit times, is a repeat where its
action asks for the check: it ends the copy's window, counts in DUPCNT and raises DUPSEEN; it is marked DUPL, or with DUP
0b10 or 0b11 not delivered. A copy that is read damaged sets RXECC, ends its window and finds no repeat (the model's reading, log 38).
In Mirror mode a frame that matches an unused record of the other channel uses the first such
record and is a mirror copy, marked MIRR or with MIRACT discarded; and the frame itself leaves one of the last 8 records. -/
def Obligations.RxDuplicates : Prop :=
  ∀ (s : State) (c : Chan) (f : RxFrame) (o : Option (Fin 256)) (a : BitVec 11) (d : DupCopy) (r : MirRec),
    coreRuns s = true → hears s c = true → (s.chan c).rxOpen = true → (s.chan c).bus ≠ .errorSig ∨ (s.chan c).lateAcc = true →
    f.data.length ≤ 64 → f.crc = crc21 (s.chan c).rxId f.data → 4 ≤ (s.chan c).rxId.toNat → f.damaged = false →
    Decided s c f o a → RoomForAll s a →
    let j := s.chan c
    let id := j.rxId
    let bits := 1298 * s.clk.divNow[c]
    let x : Chan := if c = 0 then 1 else 0
    let same : Prop := d.id = id ∧ d.data = f.data ∧ d.crc = f.crc
    let read : Prop := a.extractLsb' 7 2 ≠ 0 ∧ d.live = true ∧ j.sofAt ≤ d.at_ + bits
    let rep : Prop := read ∧ same
    let copy : Option DupCopy := some ⟨id, f.data, f.crc, s.now, true⟩
    let delivered (dupl mirr : Bool) (t : State) : Prop :=
      (∀ n, accepts a n = true → ∃ y ∈ (t.inst n).rx.getLast?, Gains s t n (entryOf s c f o a dupl mirr n y.arr)) ∧
      (∀ n, accepts a n = false → t.inst n = s.inst n)
    let dupped (t : State) : Prop :=
      (∀ n : Inst, t.mbr.dupCnt[n] = if accepts a n = true then inc16 s.mbr.dupCnt[n] else s.mbr.dupCnt[n]) ∧
      ((s.hdr .mbr).evtEn.getLsbD 12 = true → (t.hdr .mbr).evtPnd.getLsbD 12 = true)
    let hits (m : MirRec) : Prop :=
      m.used = false ∧ m.id = id ∧ m.len = f.data.length ∧ m.crc = f.crc ∧ j.sofAt ≤ m.at_ + bits
    let mine : MirRec := ⟨id, f.data.length, f.crc, s.now, false⟩
    (s.mbr.dup[c] = some d → s.mbr.mirNow = false →
      (rep → f.copyDamaged = false → a.extractLsb' 7 2 = 1 →
        Gives (.frameHandOver c f) s fun t =>
          delivered true false t ∧ dupped t ∧ t.mbr.dup[c] = (if j.lateAcc then copy else some { d with live := false })) ∧
      (rep → f.copyDamaged = false → a.extractLsb' 7 2 ≠ 1 →
        Gives (.frameHandOver c f) s fun t =>
          t.mvf = s.mvf ∧ dupped t ∧ t.mbr.dup[c] = (if j.lateAcc then copy else some { d with live := false })) ∧
      (¬ rep → f.copyDamaged = false ∨ ¬ read →
        Gives (.frameHandOver c f) s fun t =>
          delivered false false t ∧ t.mbr.dupCnt = s.mbr.dupCnt ∧
          t.mbr.dup[c] = (if j.lateAcc then copy else some d)) ∧
      (read → f.copyDamaged = true →
        Gives (.frameHandOver c f) s fun t =>
          delivered false false t ∧ t.mbr.dupCnt = s.mbr.dupCnt ∧ (t.hdr .mbr).err.getLsbD 0 = true ∧
          t.mbr.dup[c] = (if j.lateAcc then copy else some { d with live := false }))) ∧
    (s.mbr.mirNow = true → a.extractLsb' 7 2 = 0 →
      (s.mbr.mir[x] = [r] → hits r →
        (s.mbr.mirAct = false →
          Gives (.frameHandOver c f) s fun t =>
            delivered false true t ∧ dupped t ∧ t.mbr.mir[x] = [{ r with used := true }]) ∧
        (s.mbr.mirAct = true →
          Gives (.frameHandOver c f) s fun t =>
            t.mvf = s.mvf ∧ dupped t ∧ t.mbr.mir[x] = [{ r with used := true }])) ∧
      ((∀ m ∈ s.mbr.mir[x], ¬ hits m) →
        Gives (.frameHandOver c f) s fun t =>
          delivered false false t ∧ t.mbr.dupCnt = s.mbr.dupCnt ∧ t.mbr.mir[x] = s.mbr.mir[x] ∧
          (s.mbr.mir[c].length < 8 → t.mbr.mir[c] = s.mbr.mir[c] ++ [mine]) ∧
          (s.mbr.mir[c].length = 8 → t.mbr.mir[c] = s.mbr.mir[c].tail ++ [mine])))

/-- 13 R332, R344, R346 to R348 and R361: the oldest allocated entry becomes QUEUED with RXNEW, and URGNEW if urgent. In a
Sorting chain it takes the stage of R344; where 32 are queued, the entry that would stand last is lost. In Platforms it joins
the end of the filling bank, which drains at once if the other is empty; a full bank loses it.

13 R345: in a Sorting chain the first QUEUED entry by arrival whose age has reached AGELIM ages: AGED is set, and it moves to
the end of the aged entries. Without one, and in Platforms, nothing ages. -/
def Obligations.RxQueues : Prop :=
  (∀ (s : State) (i : Inst) (e z : RxEntry), coreRuns s = true →
     let m := s.inst i
     let q := rxQueued m
     let q0 := rxQueue m
     let fill : Fin 2 := if m.dbank = 0 then 1 else 0
     let cap := if m.bankSize = 0 then 128 else m.bankSize
     let filling := (q.filter fun x => x.bank = fill).length
     let lost (t : State) : Prop :=
       PoolMoved s t { s.mbr with lost := s.mbr.lost.set i.val (inc16 s.mbr.lost[i]) i.isLt } 0 0 ∧ (t.inst i).lossLatch = true
     let news : Word := oneBit 8 ||| if e.urg then oneBit 9 else 0
     let first : Prop := e ∈ m.rx ∧ e.state = .alloc ∧ (m.rx.map (·.arr)).Nodup ∧ e.aged = false ∧
       (∀ x ∈ m.rx, x.state = .alloc → e.arr ≤ x.arr) ∧ (∀ x ∈ q, x.arr < e.arr)
     let joins (b : Fin 2) : List RxEntry := m.rx.map fun x => if x.arr = e.arr then { e with state := .queued, bank := b } else x
     ((∀ x ∈ m.rx, x.state ≠ .alloc) → exec (.entryQueued i) s = .next s) ∧
     (first → m.qorg = false → q.length < 32 →
       Gives (.entryQueued i) s fun t =>
         t.inst i = { m with rx := joins 0 } ∧ (∀ n, n ≠ i → t.inst n = s.inst n) ∧
         (let l := rxQueue (t.inst i)
          let p := l.findIdx fun x => x.arr = e.arr
          l.eraseIdx p = q0 ∧ l.length = q0.length + 1 ∧
          (∀ y ∈ l.drop (p + 1), y.id ≠ e.id) ∧
          (∀ y ∈ (l.drop (p + 1)).head?, y.aged = false ∧ chainKey e < chainKey y) ∧
          (∀ y ∈ l.take p, y.aged = true ∨ chainKey y ≤ chainKey e ∨ ∃ z ∈ l.take p, z.id = e.id)) ∧
         HdrTook s t (.mvf i) news 0 ∧ PoolMoved s t s.mbr 0 0 ∧ Frame [.mvf, .mbr, .dbg] [.mvf i, .mbr] s t) ∧
     (first → m.qorg = false → q.length = 32 → (rxStage q0 { e with state := .queued, bank := 0 }).getLast? = some z →
       Gives (.entryQueued i) s fun t =>
         t.inst i = { m with rx := (joins 0).filter (fun x => !decide (x.arr = z.arr)), lossLatch := true } ∧ lost t ∧
         rxQueue (t.inst i) = (rxStage q0 { e with state := .queued, bank := 0 }).take 32 ∧
         (z.arr = e.arr → HdrTook s t (.mvf i) (oneBit 10) 0) ∧
         (z.arr ≠ e.arr → HdrTook s t (.mvf i) (oneBit 10 ||| news) 0) ∧
         Frame [.mvf, .mbr, .dbg] [.mvf i, .mbr] s t) ∧
     (first → m.qorg = true → filling < cap →
       Gives (.entryQueued i) s fun t =>
         t.inst i = { m with
           rx := joins fill, dbank := if ∃ x ∈ q, x.bank = m.dbank then m.dbank else fill } ∧
         ((∀ x ∈ q, x.bank ≠ m.dbank) →
           rxQueue (t.inst i) = (joins fill).filter fun x => x.state = .queued && x.bank = fill) ∧
         ((∃ x ∈ q, x.bank = m.dbank) → rxQueue (t.inst i) = q0) ∧
         HdrTook s t (.mvf i) news 0 ∧ PoolMoved s t s.mbr 0 0 ∧ Frame [.mvf, .mbr, .dbg] [.mvf i, .mbr] s t) ∧
     (first → m.qorg = true → cap ≤ filling →
       Gives (.entryQueued i) s fun t =>
         t.inst i = { m with rx := m.rx.filter (fun x => !decide (x.arr = e.arr)), lossLatch := true } ∧ lost t ∧
         HdrTook s t (.mvf i) (oneBit 10) 0 ∧ Frame [.mvf, .mbr, .dbg] [.mvf i, .mbr] s t)) ∧
  (∀ (s : State) (i : Inst) (e : RxEntry), coreRuns s = true →
     let m := s.inst i
     let due (x : RxEntry) : Prop := x.state = .queued ∧ x.aged = false ∧ max 1 m.ageLim ≤ x.age
     (m.qorg = true ∨ (∀ x ∈ m.rx, ¬ due x) → exec (.aged i) s = .next s) ∧
     (m.qorg = false → e ∈ m.rx → due e → (m.rx.map (·.arr)).Nodup → (∀ x ∈ m.rx, due x → e.arr ≤ x.arr) →
       Gives (.aged i) s fun t =>
         InstGets s t i
           { m with rx := m.rx.map fun x => if x.arr = e.arr then { e with aged := true, agedAt := s.stamp } else x }
           (oneBit 11) 0 ∧
         t.stamp = s.stamp + 1 ∧ Frame [.mvf, .stamp] [.mvf i] s t))

/-- 13 R350 to R354, R361 and Table 13.2: the RX window. RXWIN0 makes the head of the queue current, with the next delivery
number if it has none; off service, with a current entry, or with an empty queue it changes nothing. An uncorrectable head is
freed and lost with RXECC, and the next is taken; corrected words are counted. RXWIN19 and DROP release the current entry, in and off
service.

13 R346, R358: RESEND returns every READ entry of a queue-mode instance to QUEUED with RSNT, without its delivery number: in
Platforms to the front of the draining bank in arrival order, in a Sorting chain to their stages, of which those beyond 32
are lost. In mailbox mode it has no effect. -/
def Obligations.RxWindow : Prop :=
  (∀ (s : State) (i : Inst) (e z : RxEntry), Live s (.mvf i) →
     let m := s.inst i
     let read := Instr.rxwin0Read i []
     let others (t : State) : Prop := ∀ n, n ≠ i → t.inst n = s.inst n
     let takes (x : RxEntry) (l : List RxEntry) (t : State) : Prop :=
       (t.inst i).rx = l.map (fun y => if y.arr = x.arr then { x with
         state := .current, dnum := if x.numbered then x.dnum else m.nextDnum, numbered := true } else y) ∧
       (t.inst i).nextDnum = (if x.numbered then m.nextDnum else m.nextDnum + 1) ∧ others t
     let released (t : State) (l : List RxEntry) : Prop :=
       t.inst i = { m with rx := l } ∧ others t ∧ PoolMoved s t s.mbr 0 0 ∧ Frame [.mvf, .mbr, .dbg] [.mbr] s t
     (rxOff s i = true ∨ (∃ x ∈ m.rx, x.state = .current) ∨ rxQueue m = [] → Nothing read s) ∧
     (rxOff s i = false → (∀ x ∈ m.rx, x.state ≠ .current) → (m.rx.map (·.arr)).Nodup → (rxQueue m).head? = some e →
       Gives read s (fun t =>
         takes e m.rx t ∧ (m.qorg = false → (t.inst i).dbank = m.dbank) ∧
         (rxQueue m ≠ [e] → (t.inst i).dbank = m.dbank) ∧
         t.inst i = { m with rx := (t.inst i).rx, nextDnum := (t.inst i).nextDnum, dbank := (t.inst i).dbank } ∧
         winWord t i 0 = entryWord e 0 ∧ Frame [.mvf] [] s t) ∧
       (∀ corr, Gives (.rxwin0Read i [some corr]) s fun t =>
         takes e m.rx t ∧ t.dbg = { s.dbg with corr := satAdd 0xFFFF s.dbg.corr corr }) ∧
       ((rxQueue m).tail.head? = some z → m.qorg = false →
         (rxQueue { m with rx := m.rx.filter fun y => !decide (y.arr = e.arr) }).head? = some z →
         Gives (.rxwin0Read i [none]) s fun t =>
           takes z (m.rx.filter fun y => !decide (y.arr = e.arr)) t ∧ (t.inst i).lossLatch = true ∧
           t.mbr.lost[i] = inc16 s.mbr.lost[i] ∧ HdrTook s t (.mvf i) (oneBit 10) (oneBit 1) ∧
           t.dbg.uncorr = satInc 0xFFFF s.dbg.uncorr)) ∧
     (Gives (.rxwin19Read i) s fun t =>
       released t (if m.cmode then m.rx.filter fun x => !decide (x.state = .current)
         else m.rx.map fun x => if x.state = .current then { x with state := .read } else x)) ∧
     (Gives (.rxcmdDrop i) s fun t => released t (m.rx.filter fun x => !decide (x.state = .current))) ∧
     (entryWord e 0).getLsbD 31 = true ∧ (entryWord e 0).extractLsb' 0 24 = e.id ∧
     (entryWord e 0).getLsbD 26 = e.loss ∧ (entryWord e 0).getLsbD 24 = e.late ∧
     (entryWord e 1).extractLsb' 16 16 = e.frame ∧ (entryWord e 1).extractLsb' 0 15 = e.lk ∧
     (entryWord e 2).extractLsb' 16 16 = e.seq ∧ (entryWord e 3).extractLsb' 16 16 = e.dnum ∧
     (entryWord e 3).extractLsb' 8 3 = e.eprio ∧ (entryWord e 3).getLsbD 1 = e.rsnt ∧ entryWord e 4 = wordAt e.data 0) ∧
  (∀ (s : State) (i : Inst), Live s (.mvf i) →
     let m := s.inst i
     let back (x : RxEntry) : RxEntry :=
       if x.state = .read then
         { x with state := .queued, rsnt := true, numbered := false, bank := if m.qorg then m.dbank else 0 }
       else x
     let n := (m.rx.filter fun x => x.state = .queued ∨ x.state = .read).length
     (m.cmode = true → Nothing (.rxcmdResend i) s) ∧
     (m.cmode = false →
       (m.qorg = true ∨ n ≤ 32 →
         Gives (.rxcmdResend i) s fun t =>
           (t.inst i).rx.length = m.rx.length ∧ (∀ x ∈ m.rx, back x ∈ (t.inst i).rx) ∧
           t.inst i = { m with rx := (t.inst i).rx, dbank := (t.inst i).dbank } ∧
           (∀ x ∈ m.rx, x.state = .read → m.qorg = true → (t.inst i).dbank = m.dbank) ∧
           (m.qorg = true → (∃ x ∈ m.rx, x.state = .read) →
             ∀ y ∈ (rxQueue (t.inst i)).head?, y.rsnt = true ∧ ∀ x ∈ m.rx, x.state = .read → y.arr ≤ x.arr) ∧
           (∀ j, j ≠ i → t.inst j = s.inst j) ∧ PoolMoved s t s.mbr 0 0 ∧ Frame [.mvf, .mbr, .dbg] [.mbr] s t) ∧
       (m.qorg = false → (m.rx.map (·.arr)).Nodup → 32 < n → n < 65536 →
         Gives (.rxcmdResend i) s fun t =>
           (rxQueued (t.inst i)).length = 32 ∧ (t.inst i).lossLatch = true ∧
           (t.inst i).rx.length + (n - 32) = m.rx.length ∧
           t.mbr.lost[i] = max s.mbr.lost[i] (min 65535 (s.mbr.lost[i] + (n - 32))) ∧
           (∀ j, j ≠ i → t.inst j = s.inst j) ∧ Frame [.mvf, .mbr, .dbg] [.mvf i, .mbr] s t)))

/-- 13 R357: a write of RXACK frees every READ entry whose DNUM d satisfies (UPTO − d) mod 65,536 < 32,768, and leaves the
others; in mailbox mode it has no effect. -/
def Obligations.RxAck : Prop :=
  ∀ (s : State) (i : Inst) (upto : Half), Live s (.mvf i) →
    let m := s.inst i
    let freed (e : RxEntry) : Prop := e.state = .read ∧ (upto.toNat + 65536 - e.dnum.toNat) % 65536 < 32768
    (m.cmode = true → Nothing (.rxack i upto) s) ∧
    (m.cmode = false →
      Gives (.rxack i upto) s fun t =>
        t.inst i = { m with rx := m.rx.filter fun e => decide (¬ freed e) } ∧ (∀ n, n ≠ i → t.inst n = s.inst n) ∧
        PoolMoved s t s.mbr 0 0 ∧ Frame [.mvf, .mbr, .dbg] [.mbr] s t)

/-- 13 R353 to R356, R178 and Tables 7.8, 7.9: the IN endpoints of an instance. No answer while the function is not configured;
STALL from the wrapper or while halted; NRDY off service, for a token below 80 bytes, and with nothing to send. Else DATA of
whole entries, as many as the endpoint, the token and the queue allow, SELECTED with successive delivery numbers. It stays
pending and is repeated; a SIN's DATA is delivered as it is sent. -/
def Obligations.RxEndpoints : Prop :=
  ∀ (s : State) (i : Inst) (k : Fin 3) (seq : Bool) (len : BitVec 10) (p : List Byte), Heard s .bridge →
    let m := s.inst i
    let urgent := k.val ≠ 0
    let sin := k.val = 2
    let ix : Fin 12 := if urgent then epUrg i else epBulk i
    let e := { s.bep ix with ackable := false }
    let ep : BitVec 4 := BitVec.ofNat 4 (3 * i.val + if urgent then 3 else 2)
    let c : Instr := if urgent then .urgentIn i (decide sin) seq len [] else .bulkIn i seq len []
    let quiet (t : State) : Prop := t.bep ix = e ∧ Frame hostParts [] s t
    let wall : Prop := (s.hdr (.mvf i)).inrst = true ∨ (s.hdr .mbr).inrst = true ∨ siding s (.mvf i) = true
    let queue := (rxQueue m).filter fun x =>
      !decide urgent || (x.urg && (rxQueue m).all fun y => !(decide (y.id = x.id) && decide (y.arr < x.arr)))
    let n := min (if urgent then 2 else 6) (min ((len.toNat + 1) / 80) queue.length)
    let sent := queue.take n
    let now : RxState := if urgent then .urgent else .bulk
    let after (x : RxEntry) : RxEntry :=
      match sent.findIdx? fun y => y.arr = x.arr with
      | some j => { x with
          state := if sin then .read else now,
          dnum := if x.numbered then x.dnum else m.nextDnum + BitVec.ofNat 16 j, numbered := true }
      | none => if sin ∧ x.state = .urgent then { x with state := .read } else x
    let q := if e.fresh ∧ ¬ sin then seq else e.seq
    (s.hub.brConf = false → Gives c s fun t => t.answer = none ∧ quiet t) ∧
    (s.hub.brConf = true →
      (wall ∨ e.halted = true → Gives c s fun t => Says s t .bridge .stall ep seq ∧ quiet t) ∧
      (¬ wall → e.halted = false →
        (rxOff s i = true → e.pend = none → e.fresh = false →
          Gives c s fun t => Says s t .bridge .nrdy ep seq ∧ quiet t) ∧
        (rxOff s i = false → e.pend = none →
          (len.toNat + 1 < 80 ∨ queue = [] ∨ dataFits s (80 * n) = false → e.fresh = false →
            Gives c s fun t => Says s t .bridge .nrdy ep seq ∧ quiet t) ∧
          (80 ≤ len.toNat + 1 → queue ≠ [] → dataFits s (80 * n) = true → (m.rx.map (·.arr)).Nodup →
            (∀ x ∈ queue, x.numbered = false) →
            Gives c s fun t =>
              (∃ d ∈ t.answer, d = ⟨.data, fAddr s .bridge, ep, q, BitVec.ofNat 10 (80 * n - 1), d.payload⟩ ∧
                d.payload.length = 80 * n ∧
                (sin ∧ m.cmode = true ∨ (∀ (j : Fin 6) (w : Fin 20), j.val < n → w.val ≠ 3 →
                  wordAt d.payload (80 * j.val + 4 * w.val) =
                    entryWord (sent.getD j.val {}) w.val)) ∧
                (¬ sin → (t.bep ix).pend = some d.payload ∧ (t.bep ix).seq = q)) ∧
              (sin → (t.bep ix).pend = none ∧ (t.bep ix).seq = !e.seq) ∧
              (sin ∧ m.cmode = true → (t.inst i).rx =
                m.rx.filter fun x => !(decide (x.state = .urgent) || sent.any fun y => y.arr = x.arr)) ∧
              (¬ (sin ∧ m.cmode = true) → (t.inst i).rx = m.rx.map after) ∧
              (t.inst i).nextDnum = m.nextDnum + BitVec.ofNat 16 n ∧ (∀ j, j ≠ i → t.inst j = s.inst j) ∧
              Frame (.mvf :: .mbr :: .dbg :: hostParts) [.mbr] s t)) ∧
        (rxOff s i = false → e.pend = some p → p ≠ [] → e.fresh = false → ¬ sin → seq = e.seq →
          (p.length ≤ len.toNat + 1 → dataFits s p.length = true →
            Gives c s fun t =>
              (∃ d ∈ t.answer, d.typ = .data ∧ d.payload = p ∧ d.seq = e.seq ∧ d.ep = ep) ∧ t.inst i = m ∧
              t.bep ix = { e with ackable := true } ∧ Frame hostParts [] s t) ∧
          (len.toNat + 1 < p.length → Gives c s fun t => Says s t .bridge .nrdy ep seq ∧ quiet t))))

/-- 13 R342: a write of QUOTAn with MIN above MAX, or that takes the sum of all MIN above 512, is ignored and raises QREJ; any
other takes effect. It frees nothing: below held(n), MAX only stops further allocations for n. -/
def Obligations.RxQuota : Prop :=
  ∀ (s : State) (i : Inst) (val : Word), Live s .mbr →
    let mx := (val.extractLsb' 16 10).toNat
    let mn := (val.extractLsb' 0 10).toNat
    let mins (j : Inst) : Nat := if j = i then mn else s.mbr.qMin[j]
    let bad : Prop := mx < mn ∨ 512 < mins 0 + mins 1 + mins 2 + mins 3
    (bad →
      Gives (.mbrQuotaWrite i val) s fun t => t.mbr = s.mbr ∧ HdrTook s t .mbr (oneBit 10) 0 ∧ Frame [] [.mbr] s t) ∧
    (¬ bad →
      Gives (.mbrQuotaWrite i val) s fun t =>
        t.mbr = { s.mbr with qMin := t.mbr.qMin, qMax := t.mbr.qMax } ∧
        (∀ j : Inst, t.mbr.qMin[j] = mins j ∧ t.mbr.qMax[j] = if j = i then mx else s.mbr.qMax[j]) ∧
        t.mvf = s.mvf ∧ (mx ≤ (s.inst i).rx.length → canAlloc t i = false) ∧ Frame [.mbr] [] s t)

/-- 13 R362 and 12 Table 12.9: a write of WMx with LO at or above a HI that is not 0 is ignored and raises WMREJ; any other
re-evaluates the pin of the channel against the count. LOWCLR starts a new low-water measurement. -/
def Obligations.RxWatermarks : Prop :=
  ∀ (s : State) (c : Chan) (val : Word), Live s .mbr →
    let hi := (val.extractLsb' 16 10).toNat
    let lo := (val.extractLsb' 0 10).toNat
    let use := ((allInsts.map fun i => ((s.inst i).rx.filter fun e => e.chan = c).length)).sum
    let pin : Bool := if hi = 0 then false else if hi ≤ use then true else if use ≤ lo then false else s.mbr.flow[c]
    (hi ≠ 0 → hi ≤ lo →
      Gives (.mbrWmWrite c val) s fun t => t.mbr = s.mbr ∧ HdrTook s t .mbr (oneBit 11) 0 ∧ Frame [] [.mbr] s t) ∧
    (hi = 0 ∨ lo < hi →
      Gives (.mbrWmWrite c val) s fun t =>
        t.mbr = { s.mbr with wmHi := t.mbr.wmHi, wmLo := t.mbr.wmLo, flow := t.mbr.flow, flowCnt := t.mbr.flowCnt } ∧
        (∀ d : Chan,
          t.mbr.wmHi[d] = (if d = c then hi else s.mbr.wmHi[d]) ∧ t.mbr.wmLo[d] = (if d = c then lo else s.mbr.wmLo[d]) ∧
          t.mbr.flow[d] = (if d = c then pin else s.mbr.flow[d]) ∧
          t.mbr.flowCnt[d] =
            if d = c ∧ pin = true ∧ s.mbr.flow[c] = false then inc16 s.mbr.flowCnt[d] else s.mbr.flowCnt[d]) ∧
        HdrTook s t .mbr (if pin = true ∧ s.mbr.flow[c] = false then oneBit (8 + c.val) else 0) 0 ∧
        Frame [.mbr] [.mbr] s t) ∧
    Gives .mbrCfgLowclr s fun t =>
      t.dbg = { s.dbg with lowest := 512 - ((allInsts.map fun i => (s.inst i).rx.length)).sum } ∧ Frame [.dbg] [] s t

/-! ### Power states (14) -/

/-- 14 R370, R379, R380: a request for a state, or the idle proposal, starts a round: round lk 0 is now, the wake latch is armed and
empty, and the votes of R367 and R368 begin in the same lk. A request has no effect while a round, a low-power state or an exit is in
progress.

14 R367, R368, R369: the votes. TXPEND, FATAL and FENCED override PWR_VOTE (a fatal fault fences the power controller, which then
says FATAL); VBUSY delays; a policy of 1 consents, one of 0 consents when idle, delays while busy and refuses after DELAY_MAX; a
block in Block reset is busy, one that is disabled or in Siding is idle; a vote once given holds. In every lk of a round the first refusal by bit
index ends it, and else the consents are kept. What a held participant has put off starts in the lk after the end of its hold:
line recovery, or the resume of a port (whose quiet window is then free, log 4).

14 R371, R372, R373, R376: how a round ends. Every consent, with VBUSY 0, is AGREED and raises bit 1. A busy AUTO participant at its delay
refuses with reason 2; NOPOLL and HOSTLATE abort with 8 and 9. A round that ends counts in REFUSED, records itself, releases every
participant and disarms the latch; after PREADY the detector arms again, and a gated core starts the way back, to CUR's code.

14 R377, R387: the steps of an entry to Retain or Heron. The core is gated in the lk after PREADY's tail, where a Heron entry
clears MISS and BURSTS; BORLOW is set in the next; and from the third on VSEL goes to 0b11, one change in each lk. -/
def Obligations.EntryRounds : Prop :=
  (∀ (s : State) (k : Fin 3), Live s .pwr →
     let l : LowState := if k = 0 then .park else if k = 1 then .retain else .heron
     let c : Instr := if k = 0 then .pwrReqPark else if k = 1 then .pwrReqRetain else .pwrReqHeron
     let begun (l : LowState) : State :=
       { s with
         pwr := { s.pwr with round := .voting, rstate := l, consented := 0, roundAt := s.now }
         aon := { s.aon with armed := true, latched := 0, first := 0, early := false } }
     let starts (c : Instr) (l : LowState) (evts : Word) : Prop :=
       (firstRefusal (begun l) = none →
         Gives c s fun t =>
           t.pwr.round = .voting ∧ t.pwr.rstate = l ∧ t.pwr.roundAt = s.now ∧ t.pwr.consented = consents (begun l) ∧
           t.aon = (begun l).aon ∧ t.pwr.entries = s.pwr.entries ∧ t.pwr.refused = s.pwr.refused ∧
           HdrTook s t .pwr evts 0 ∧ Frame [.pwr, .aon] [.pwr] s t) ∧
       (∀ p r, firstRefusal (begun l) = some (p, r) →
         Gives c s fun t =>
           t.pwr.round = .none ∧ t.pwr.consented = 0 ∧ t.pwr.refused = satInc 0xFFFF s.pwr.refused ∧
           t.pwr.refState = lowCode l ∧ t.pwr.refReason = r ∧ t.pwr.refBlock = BitVec.ofNat 8 (blkPage (partBlk p)) ∧
           t.aon.armed = false ∧ t.pwr.idleCnt = 0 ∧ HdrTook s t .pwr (evts ||| oneBit 3) 0 ∧
           Frame [.pwr, .aon] [.pwr] s t)
     (s.pwr.round = .none → s.pwr.low = none → s.pwr.exit = .none →
       starts c l 0 ∧ (s.pwr.idleLimit ≠ 0 → allIdle s = true → starts .propose .park (oneBit 0))) ∧
     (s.pwr.round ≠ .none →
       (Gives c s fun t => t.pwr.rstate = s.pwr.rstate ∧ t.pwr.roundAt = s.pwr.roundAt ∧ Frame [] [] s t) ∧
       exec .propose s = .next s) ∧
     (s.pwr.round = .none → s.pwr.low.isSome = true ∨ s.pwr.exit ≠ .none → Nothing c s)) ∧
  (∀ (s : State) (p : Fin 21) (c : Chan) (q : Fin 21) (r : BitVec 4),
     let b := partBlk p
     (p.val = 12 + c.val → (∃ i, txPendingOn s i c = true) → voteOf s p = .refuse 3) ∧
     (p = 20 → fatal s = true → voteOf s p = .refuse 4) ∧
     (p = 19 → siding s .pwr = true → voteOf s p = .refuse (if fatal s then 4 else 5)) ∧
     (p = 19 → siding s .pwr = false → s.clk.vbusy = true → voteOf s p = .delay) ∧
     (p.val < 19 → override s p = none → held s p.val = true → voteOf s p = .consent) ∧
     (p.val < 19 → override s p = none → held s p.val = false →
       voteOf s p =
         if policy s b = 1 then .consent
         else if policy s b ≠ 0 then .refuse 1
         else if busy s p = false then .consent
         else if s.pwr.roundAt + 256 * (max 1 (s.hdr b).delayMax.toNat) ≤ s.now then .refuse 2
         else .delay) ∧
     ((s.hdr b).inrst = true → busy s p = true) ∧
     ((s.hdr b).inrst = false → p ≠ 19 → (s.hdr b).en = false ∨ siding s b = true → busy s p = false) ∧
     (firstRefusal s = some (p, r) → voteOf s p = .refuse r ∧ (q < p → ∀ r', voteOf s q ≠ .refuse r'))) ∧
  (∀ (s : State) (c : Chan) (n : Port), s.pending = [] → coreRuns s = true → entering s = false →
     (s.pwr.round ≠ .none →
       StepGives s fun t =>
         (t.pwr.round ≠ .none →
           t.pwr.round = s.pwr.round ∧ firstRefusal t = none ∧
           ∀ p : Fin 21, t.pwr.consented.getLsbD p.val = (s.pwr.consented.getLsbD p.val || decide (voteOf t p = .consent))) ∧
         (t.pwr.round = .none → t.pwr.refused = satInc 0xFFFF s.pwr.refused ∧ t.pwr.consented = 0)) ∧
     (s.pwr.consented = 0 → (s.chan c).rcvWait = true → active s (.jx c) = true →
       StepGives s fun t => (t.chan c).bus = .recovery ∧ (t.chan c).rcvWait = false) ∧
     (s.pwr.consented = 0 → (s.port n).state = .sus → (s.port n).held = true → (s.hdr (.prt n)).inrst = false →
       StepGives s fun t =>
         (t.port n).state = .rsm ∧ (t.port n).held = false ∧ ((t.port n).drive = .resume ∨ (t.port n).drive = .quiet))) ∧
  (∀ (s : State) (b : Fin 21), coreRuns s = true →
     let ended (t : State) (reason block : Nat) : Prop :=
       t.pwr.round = .none ∧ t.pwr.consented = 0 ∧ t.pwr.refused = satInc 0xFFFF s.pwr.refused ∧
       t.pwr.refState = lowCode s.pwr.rstate ∧ t.pwr.refReason = BitVec.ofNat 4 reason ∧
       t.pwr.refBlock = BitVec.ofNat 8 block ∧ t.aon.armed = false ∧ t.aon.latched = 0 ∧ t.pwr.entries = s.pwr.entries ∧
       HdrTook s t .pwr (oneBit 3) 0 ∧ Frame [.pwr, .aon, .clk] [.pwr] s t
     (s.pwr.round = .voting → b.val < 19 → held s b.val = false → policy s (partBlk b) = 0 → busy s b = true →
       Gives (.delayMax b) s fun t => ended t 2 (blkPage (partBlk b)) ∧ t.clk = s.clk) ∧
     (s.pwr.round = .voting → b.val < 19 → policy s (partBlk b) ≠ 0 → exec (.delayMax b) s = .next s) ∧
     (s.pwr.round = .voting → s.pwr.consented = BitVec.allOnes 21 → s.clk.vbusy = false → firstRefusal s = none →
       Gives .agreed s fun t =>
         t.pwr.round = .agreed ∧ t.pwr.consented = s.pwr.consented ∧ HdrTook s t .pwr (oneBit 1) 0 ∧
         Frame [.pwr] [.pwr] s t) ∧
     (s.pwr.round = .voting → s.pwr.consented ≠ BitVec.allOnes 21 ∨ s.clk.vbusy = true → exec .agreed s = .next s) ∧
     (s.pwr.round = .agreed → Gives .nopoll s fun t => ended t 8 0x09 ∧ t.clk = s.clk)) ∧
  (∀ s : State, s.pwr.clockOn = true → s.pwr.round = .preadySent →
     (Gives .hostlate s fun t =>
       t.pwr.round = .none ∧ t.pwr.consented = 0 ∧ t.pwr.refused = satInc 0xFFFF s.pwr.refused ∧
       t.pwr.refState = lowCode s.pwr.rstate ∧ t.pwr.refReason = 9 ∧ t.pwr.refBlock = 0x08 ∧ t.aon.armed = false ∧
       t.aon.latched = 0 ∧ t.clk.armed = true ∧ HdrTook s t .pwr (oneBit 3) 0 ∧
       (s.pwr.gated = false → t.pwr.exit = s.pwr.exit ∧ t.clk = { s.clk with armed := true }) ∧
       (s.pwr.gated = true →
         t.pwr.exit = .abort ∧ t.pwr.gated = true ∧ t.clk.vcode = s.clk.vcode ∧
         t.clk.vsteps = vselPath s.clk.vcode (levelCode s.clk.cur)) ∧
       Frame [.pwr, .aon, .clk] [.pwr] s t) ∧
     (s.pending = [] → firstRefusal s = none →
       let steps (q : State → Prop) : Prop := StepGives s fun t => q t ∧ t.pwr.round = .preadySent ∧ t.pwr.low = s.pwr.low
       (s.pwr.entry = 1 → s.pwr.rstate ≠ .park →
         steps fun t =>
           t.pwr.gated = true ∧ t.pwr.entry = 2 ∧ t.clk = s.clk ∧
           t.aon = (if s.pwr.rstate = .heron then { s.aon with miss := 0, bursts := 0 } else s.aon) ∧
           Frame [.pwr, .aon] [] s t) ∧
       (s.pwr.entry = 2 →
         steps fun t =>
           t.pwr.entry = 3 ∧ t.rst = { s.rst with borlow := true } ∧
           t.clk = { s.clk with vsteps := vselPath s.clk.vcode 3 } ∧ Frame [.pwr, .rst, .clk] [] s t) ∧
       (s.pwr.entry = 3 →
         steps fun t =>
           t.clk = { s.clk with vcode := s.clk.vsteps.headD s.clk.vcode, vsteps := s.clk.vsteps.tail } ∧
           Frame [.clk, .pwr] [] s t)))

/-- 14 R372, R374, R377: the stop of UCLK completes the entry; for Retain and Heron the core is then gated, BORLOW is set and VSEL
drives 0b11. 14 R383 and Table 14.6: in Park the return of the clock is source HOST and service follows; in Retain a return without the wake pattern is
source CLKRET, and a wake pattern is HOST; both then start the exit, in which VSEL returns to the code of CUR. A wake pattern latches HOST
where the clock has returned; in Park the running core repeats it on every ENABLED port (06 R165).

14 R375, R382, R384, R388: service resumes. WAKE_CAUSE, WAKE_SET and WAKE_TIME record the wake, the consents are released, BORLOW clears,
the detector is armed, ENTRIES counts and bit 4 of PWR is raised; a wait beyond VTO raises the PWR error. A SUSPENDED port whose
wake was latched resumes as after a remote wake. From Retain and Heron the hub repeats the wake pattern (06 R165). An abort is
restored without a record (R373). -/
def Obligations.StopReturnAndService : Prop :=
  (∀ s : State,
     let latched (t : State) (code : Nat) : Prop :=
       t.aon = { s.aon with
         latched := s.aon.latched ||| BitVec.ofNat 22 (1 <<< code),
         first := if s.aon.latched = 0 then BitVec.ofNat 5 code else s.aon.first,
         early := if s.aon.latched = 0 then s.pwr.low.isNone else s.aon.early }
     let back : Clk := { s.clk with vsteps := vselPath s.clk.vcode (levelCode s.clk.cur) }
     let patterned (t : State) : Prop :=
       ∀ n : Port, t.sent[n] = if (s.port n).state = .ena then some .wake else none
     (s.pwr.round = .preadySent → s.pwr.clockOn = true →
       Gives .clockStop s fun t =>
         t.pwr.clockOn = false ∧ t.pwr.low = some s.pwr.rstate ∧ t.pwr.round = .none ∧ t.pwr.consented = s.pwr.consented ∧
         t.pwr.exit = s.pwr.exit ∧ t.pwr.entries = s.pwr.entries ∧ t.pwr.refused = s.pwr.refused ∧
         (s.pwr.rstate = .park →
           t.aon = s.aon ∧ t.clk = s.clk ∧ t.rst = s.rst ∧ t.pwr.gated = s.pwr.gated ∧ Frame [.pwr] [] s t) ∧
         (s.pwr.rstate ≠ .park →
           t.pwr.gated = true ∧ t.rst = { s.rst with borlow := true } ∧ t.clk = { s.clk with vcode := 3, vsteps := [] } ∧
           t.aon = (if s.pwr.rstate = .heron then { s.aon with miss := 0, bursts := 0 } else s.aon) ∧
           Frame [.pwr, .rst, .clk, .aon] [] s t)) ∧
     (s.pwr.round ≠ .preadySent → exec .clockStop s = .next s) ∧
     (s.pwr.round = .none → s.pwr.clockOn = false →
       (∀ pat, s.pwr.low = some .park →
         Gives (.clockReturn pat) s fun t =>
           latched t 1 ∧ t.pwr.clockOn = true ∧ t.pwr.exit = .parkReturn ∧ t.clk = { s.clk with armed := true } ∧
           Frame [.pwr, .clk, .aon] [] s t) ∧
       (s.pwr.low = some .retain →
         Gives (.clockReturn false) s (fun t =>
           latched t 21 ∧ t.pwr.clockOn = true ∧ t.pwr.exit = .pgood ∧ t.clk = { back with armed := true } ∧
           Frame [.pwr, .clk, .aon] [] s t) ∧
         Gives (.clockReturn true) s (fun t =>
           t.aon = s.aon ∧ t.pwr.clockOn = true ∧ t.pwr.exit = .returned ∧ t.clk = { s.clk with armed := true } ∧
           Frame [.pwr, .clk] [] s t)) ∧
       (∀ pat, s.pwr.low = some .heron →
         Gives (.clockReturn pat) s fun t =>
           t.aon = { s.aon with committed := false } ∧ t.pwr.clockOn = true ∧ t.pwr.exit = .returned ∧ t.clk = s.clk ∧
           Frame [.pwr, .aon] [] s t)) ∧
     (s.pwr.clockOn = true → ∀ pat, exec (.clockReturn pat) s = .next s) ∧
     (s.pwr.round = .none → s.pwr.clockOn = true →
       (s.pwr.exit = .returned →
         Gives .wakePattern s fun t =>
           latched t 1 ∧ t.pwr.exit = .pgood ∧ t.clk = back ∧ t.sent = s.sent ∧ Frame [.pwr, .clk, .aon] [] s t) ∧
       (s.pwr.exit = .parkReturn →
         Gives .wakePattern s fun t =>
           latched t 1 ∧ t.pwr.exit = .parkReturn ∧ patterned t ∧ Frame [.pwr, .aon, .sent] [] s t) ∧
       (s.pwr.exit = .none ∨ s.pwr.exit = .pgood ∨ s.pwr.exit = .abort → exec .wakePattern s = .next s))) ∧
  (∀ (s : State) (late : Bool), s.pwr.round = .none →
     let settled : Clk :=
       { s.clk with vcode := s.clk.vsteps.getLastD s.clk.vcode, vsteps := [], pgLow := false }
     let wakes (n : Port) : Prop :=
       (s.port n).state = .sus ∧ (s.port n).wakeen = true ∧ s.aon.latched.getLsbD (2 + n.val) = true
     let back (l : LowState) (late : Bool) (t : State) : Prop :=
       t.pwr.low = none ∧ t.pwr.exit = .none ∧ t.pwr.gated = false ∧ t.pwr.consented = 0 ∧ t.pwr.idleCnt = 0 ∧
       t.pwr.noMiss = true ∧ t.pwr.entries = inc16 s.pwr.entries ∧ t.rst = { s.rst with borlow := false } ∧
       t.clk = { (if l = .park then s.clk else settled) with armed := true } ∧
       t.aon = { s.aon with
         wkFrom := lowCode l, wkLatepg := late, wkReplay := s.aon.early, wkSrc := s.aon.first, wkSet := s.aon.latched,
         wkFrame := s.clk.frame, wkLk := s.clk.lk, armed := false, latched := 0, first := 0, early := false } ∧
       HdrTook s t .pwr (oneBit 4) (if late then oneBit 0 else 0) ∧
       (∀ n : Port,
         (wakes n →
           t.port n =
             { entered s (s.port n) .rsm with
               drive := .resume, held := false, wakeCnt := inc16 (s.port n).wakeCnt, misses := 0 } ∧
           HdrTook s t (.prt n) (oneBit 9) 0) ∧
         (¬ wakes n → t.port n = s.port n ∧ HdrTook s t (.prt n) 0 0)) ∧
       (∀ n : Port, t.sent[n] =
         if l = .park then s.sent[n] else if (s.port n).state = .ena then some .wake else none) ∧
       t.pins.pads = Vector.replicate 3 (padSample t) ∧
       Frame [.pwr, .aon, .clk, .rst, .ports, .upl, .sent, .pins]
         [.pwr, .prt 0, .prt 1, .prt 2, .prt 3, .prt 4, .prt 5, .prt 6, .prt 7] s t
     (s.pwr.low = some .park → s.pwr.exit = .parkReturn → Gives .parkService s (back .park false)) ∧
     (s.pwr.low ≠ some .park ∨ s.pwr.exit ≠ .parkReturn → exec .parkService s = .next s) ∧
     (s.pwr.low = some .retain → s.pwr.exit = .pgood → Gives (.pgoodQualification late) s (back .retain late)) ∧
     (s.pwr.low = some .heron → s.pwr.exit = .pgood → Gives (.pgoodQualification late) s (back .heron late)) ∧
     (s.pwr.exit = .abort →
       Gives (.pgoodQualification late) s fun t =>
         t.pwr.exit = .none ∧ t.pwr.gated = false ∧ t.pwr.entries = s.pwr.entries ∧ t.aon = s.aon ∧
         t.rst = { s.rst with borlow := false } ∧ t.clk = settled ∧ HdrTook s t .pwr 0 (if late then oneBit 0 else 0) ∧
         Frame [.pwr, .rst, .clk] [.pwr] s t))

/-- 14 R380, R381, R386, R387: the wake latch takes a source that is armed and enabled, and remembers the first; in Heron not one that the
sampler compares, and HOST, HERON and CLKRET only from what makes them. The first eight edges of every return in Heron are one
sampling: they commit their sample, and HRN_DIFF and source HRNDIFF follow from CONFIRM consecutive mismatches; a burst that ends
without a wake stops UCLK again and counts as short below eight edges. -/
def Obligations.WakeSources : Prop :=
  ∀ (s : State) (code : Fin 22) (x : BitVec 18) (edges : Nat), s.pwr.round = .none →
    let enabled : Prop :=
      2 ≤ code.val ∧ code.val < 20 ∧ s.aon.wakeEn.getLsbD code.val = true ∧
      ¬ (s.pwr.low = some .heron ∧ s.aon.hrnMask.getLsbD (code.val - 2) = true)
    (s.aon.armed = true → enabled →
      Gives (.wakeSource code) s fun t =>
        t.aon = { s.aon with
          latched := s.aon.latched ||| BitVec.ofNat 22 (1 <<< code.val),
          first := if s.aon.latched = 0 then BitVec.ofNat 5 code.val else s.aon.first,
          early := if s.aon.latched = 0 then s.pwr.low.isNone else s.aon.early } ∧ Frame [.aon] [] s t) ∧
    (s.aon.armed = false ∨ ¬ enabled → exec (.wakeSource code) s = .next s) ∧
    (s.pwr.low = some .heron → s.pwr.clockOn = true →
      let d := (x ^^^ s.aon.hrnExp) &&& s.aon.hrnMask
      let lim := if s.aon.confirm = 0 then 1 else s.aon.confirm
      (s.pwr.exit = .returned ∨ s.pwr.exit = .pgood → s.aon.committed = false →
        Gives (.samplingBurst x) s fun t =>
          t.aon.sample = x ∧ t.aon.bursts = satInc 0xFFFFFF s.aon.bursts ∧ t.aon.committed = true ∧
          t.aon.miss = (if d = 0 then 0 else satInc 15 s.aon.miss) ∧
          t.aon.diff = (if lim ≤ t.aon.miss then d else s.aon.diff) ∧
          t.aon.latched = (if lim ≤ t.aon.miss then s.aon.latched ||| BitVec.ofNat 22 (1 <<< 20) else s.aon.latched) ∧
          t.aon.first = (if lim ≤ t.aon.miss ∧ s.aon.latched = 0 then 20 else s.aon.first) ∧
          t.aon.hrnMask = s.aon.hrnMask ∧ t.aon.hrnExp = s.aon.hrnExp ∧ Frame [.aon] [] s t) ∧
      (s.aon.committed = true → exec (.samplingBurst x) s = .next s) ∧
      (s.pwr.exit = .returned →
        Gives (.samplingBurstEnd edges) s (fun t =>
          t.pwr.clockOn = false ∧ t.pwr.exit = .none ∧
          t.aon = { s.aon with
            committed := false, short := if edges < 8 then satInc 0xFF s.aon.short else s.aon.short } ∧
          Frame [.pwr, .aon] [] s t)) ∧
      (s.pwr.exit ≠ .returned → exec (.samplingBurstEnd edges) s = .next s))

/-! ### The Signal box (15) -/

/-- 15 R389, R391 to R393, R395, R398: a source whose line is asserted and that is new, or whose effective severity exceeds
its LSEV, sets its bit and LSEV, is recorded in FLT_LAST, counts in REACT, and fences the units of its class: its own at
severity 2, every unit of the fatal reaction at 3; a unit in Block reset stays in Siding when that ends. Each fence applied counts in
FENCES. The line is the ERR of this lk or of the one before. A source already latched at its severity does nothing. A fatal fault
that appears ends a round with FATAL. (These clauses are without escalation.) 15 R399: with FESC = 1 a reaction at severity 3 asserts LKP with
its record.

15 R389, R392, R394: a write of 1 to FLT_STAT clears a source whose line is not asserted, its LSEV with it, and no other;
the clear of the last bit raises event 3. FAULT_N is low where a set bit has an LSEV of at least PINSEV, else high, or released
with FOD = 1.

15 R396: PWRUNF takes the power controller out of Siding and awaits PGOOD again from the code being driven, unless the
CLK or PWR source or a fatal fault is present; during its Block reset the restart is left to the end of that (log 28). The fence of it ends
a level transition: VBUSY is 0, and a VSEL pin that its SF code drives has that level. -/
def Obligations.Faults : Prop :=
  (∀ (s : State) (k : Fin 21) (b : Blk), coreRuns s = true →
     let src := srcBlk k
     let old := s.flt.src.getLsbD k.val
     let lsev := s.flt.lsev[k].toNat
     let line := (s.hdr src).err ||| (s.hdr src).errLine
     let eff := if s.flt.mode.getLsbD k.val then (s.hdr src).sev.toNat else fixedSev s src
     let sev := max (if old then lsev else 0) eff
     let acts : Prop := (line ≠ 0 ∧ old = false) ∨ (old = true ∧ lsev < sev)
     (acts → sev ≠ 3 ∨ (optByte s 6).getLsbD 0 = false →
       Gives (.reaction k) s fun t =>
         t.flt.src = s.flt.src ||| BitVec.ofNat 21 (1 <<< k.val) ∧ t.flt.lsev[k] = BitVec.ofNat 2 sev ∧
         (∀ j, j ≠ k → t.flt.lsev[j] = s.flt.lsev[j]) ∧ t.flt.react = inc16 s.flt.react ∧ t.flt.lvalid = true ∧
         t.flt.lsrc = BitVec.ofNat 5 k.val ∧ t.flt.lsevl = BitVec.ofNat 2 sev ∧ t.flt.lastFrame = s.clk.frame ∧
         t.flt.lastLk = s.clk.lk ∧ t.flt.lblock = BitVec.ofNat 8 (blkPage src) ∧
         t.flt.fvalid = (s.flt.fvalid || decide (s.flt.src = 0)) ∧
         t.flt.fsrc = (if s.flt.src = 0 then BitVec.ofNat 5 k.val else s.flt.fsrc) ∧
         t.flt.mode = s.flt.mode ∧ t.flt.pinsev = s.flt.pinsev ∧
         HdrTook s t .flt (oneBit 1 ||| (if old then 0 else oneBit 0) |||
           (if sev = 3 ∧ fatal s = false then oneBit 2 else 0)) 0 ∧
         ((t.hdr b).siding = true ↔ (s.hdr b).siding = true ∨ (sev = 3 ∧ b ∈ fatalUnits) ∨
           (sev = 2 ∧ b ∈ fenceUnit src)) ∧
         ((s.hdr b).inrst = true → ((t.hdr b).fenceAfter = true ↔ (s.hdr b).fenceAfter = true ∨ (sev = 3 ∧ b ∈ fatalUnits) ∨
           (sev = 2 ∧ b ∈ fenceUnit src))) ∧
         (sev < 2 ∨ (sev = 2 ∧ ∀ u ∈ fenceUnit src, (s.hdr u).siding = true) → t.flt.fences = s.flt.fences) ∧
         (sev = 2 → (∃ u ∈ fenceUnit src, (s.hdr u).siding = false) → t.flt.fences = inc16 s.flt.fences) ∧
         (sev = 3 → ∀ n : Port, (s.hdr (.prt n)).siding = false → (t.port n).state = .sid) ∧
         (sev = 3 → fatal s = false → s.pwr.round ≠ .none →
           t.pwr.round = .none ∧ (firstRefusal s = none → t.pwr.refReason = 4)) ∧
         t.pending = s.pending ∧ t.mem = s.mem) ∧
     (acts → sev = 3 → (optByte s 6).getLsbD 0 = true →
       Gives (.reaction k) s fun t =>
         t.rst.fesc = true ∧ t.rst.lkpKind = 2 ∧ t.rst.lkpBlock = BitVec.ofNat 8 (blkPage src) ∧ inService t = false ∧
         t.pending = s.pending ∧ t.mem = s.mem) ∧
     (¬ acts → Nothing (.reaction k) s)) ∧
  (∀ (s : State) (w : Word) (k : Fin 21), Live s .flt →
     let hit : Prop := w.getLsbD k.val = true ∧ s.flt.src.getLsbD k.val = true ∧
       (s.hdr (srcBlk k)).err ||| (s.hdr (srcBlk k)).errLine = 0
     (Gives (.fltStatClear w) s fun t =>
       (t.flt.src.getLsbD k.val = true ↔ s.flt.src.getLsbD k.val = true ∧ ¬ hit) ∧
       t.flt.lsev[k] = (if hit then 0 else s.flt.lsev[k]) ∧ t.flt.fvalid = (s.flt.fvalid && decide (t.flt.src ≠ 0)) ∧
       t.flt.mode = s.flt.mode ∧ t.flt.react = s.flt.react ∧ t.flt.fences = s.flt.fences ∧
       HdrTook s t .flt (if s.flt.src ≠ 0 ∧ t.flt.src = 0 then oneBit 3 else 0) 0 ∧ Frame [.flt] [.flt] s t) ∧
     (let low : Prop := ∃ j : Fin 21, s.flt.src.getLsbD j.val = true ∧ s.flt.pinsev.toNat ≤ s.flt.lsev[j].toNat
      ((readWord s 0x0708).getLsbD 26 = true ↔ low) ∧ (low → faultPad s = .low) ∧
      (¬ low → faultPad s = if fod s then .hiZ else .high))) ∧
  (∀ s : State, Live s .flt →
     let bars : Prop := srcSet s .clk = true ∨ srcSet s .pwr = true ∨ fatal s = true
     ((s.hdr .pwr).siding = false ∨ bars → Nothing .pwrunf s) ∧
     ((s.hdr .pwr).siding = true → ¬ bars → s.pwr.round = .none →
       Gives .pwrunf s fun t =>
         t.hdr .pwr = { hdrAfter s t .pwr 0 0 with siding := false, fenceAfter := false } ∧
         t.clk = (if (s.hdr .pwr).inrst then s.clk
           else { s.clk with cur := curFor s.clk.cur s.clk.vcode, vbusy := true, vphase := .start, vsteps := [] }) ∧
         Frame [.clk] [.pwr] s t)) ∧
  (∀ (s : State) (a b : Option Bool), (s.hdr .pwr).siding = false →
     padLevelOf s .vsel0 (padOfCode (sfCode s .vsel0)) = a → padLevelOf s .vsel1 (padOfCode (sfCode s .vsel1)) = b →
     let t := boxFence s .pwr
     (t.hdr .pwr).siding = true ∧ t.clk.vbusy = false ∧ t.clk.vphase = .idle ∧ t.clk.vsteps = [] ∧
     t.clk.cur = curFor s.clk.cur t.clk.vcode ∧ t.flt.fences = inc16 s.flt.fences ∧
     (∀ x ∈ a, (t.clk.vcode = 1 ∨ t.clk.vcode = 3 ↔ x = true)) ∧
     (∀ y ∈ b, (t.clk.vcode = 2 ∨ t.clk.vcode = 3 ↔ y = true)))
end

