-- ==== Sys2Proof/Laws/State.lean ====
section
/-! SUPPORT. What each update of the state leaves unchanged, field by field, and what it reads back: no proof needs to
unfold a record update. -/

namespace Sys2Proof.Machine

/-! ### State.setHdr -/
@[simp] theorem State.setHdr_pins (s : State) (b : Blk) (h : Hdr) : (s.setHdr b h).pins = s.pins := rfl
@[simp] theorem State.setHdr_rst (s : State) (b : Blk) (h : Hdr) : (s.setHdr b h).rst = s.rst := rfl
@[simp] theorem State.setHdr_clk (s : State) (b : Blk) (h : Hdr) : (s.setHdr b h).clk = s.clk := rfl
@[simp] theorem State.setHdr_opt (s : State) (b : Blk) (h : Hdr) : (s.setHdr b h).opt = s.opt := rfl
@[simp] theorem State.setHdr_sys (s : State) (b : Blk) (h : Hdr) : (s.setHdr b h).sys = s.sys := rfl
@[simp] theorem State.setHdr_dbg (s : State) (b : Blk) (h : Hdr) : (s.setHdr b h).dbg = s.dbg := rfl
@[simp] theorem State.setHdr_bkp (s : State) (b : Blk) (h : Hdr) : (s.setHdr b h).bkp = s.bkp := rfl
@[simp] theorem State.setHdr_upl (s : State) (b : Blk) (h : Hdr) : (s.setHdr b h).upl = s.upl := rfl
@[simp] theorem State.setHdr_hub (s : State) (b : Blk) (h : Hdr) : (s.setHdr b h).hub = s.hub := rfl
@[simp] theorem State.setHdr_ep0 (s : State) (b : Blk) (h : Hdr) : (s.setHdr b h).ep0 = s.ep0 := rfl
@[simp] theorem State.setHdr_beps (s : State) (b : Blk) (h : Hdr) : (s.setHdr b h).beps = s.beps := rfl
@[simp] theorem State.setHdr_ttb (s : State) (b : Blk) (h : Hdr) : (s.setHdr b h).ttb = s.ttb := rfl
@[simp] theorem State.setHdr_ports (s : State) (b : Blk) (h : Hdr) : (s.setHdr b h).ports = s.ports := rfl
@[simp] theorem State.setHdr_lastRise (s : State) (b : Blk) (h : Hdr) : (s.setHdr b h).lastRise = s.lastRise := rfl
@[simp] theorem State.setHdr_xlt (s : State) (b : Blk) (h : Hdr) : (s.setHdr b h).xlt = s.xlt := rfl
@[simp] theorem State.setHdr_jx (s : State) (b : Blk) (h : Hdr) : (s.setHdr b h).jx = s.jx := rfl
@[simp] theorem State.setHdr_mbr (s : State) (b : Blk) (h : Hdr) : (s.setHdr b h).mbr = s.mbr := rfl
@[simp] theorem State.setHdr_mvf (s : State) (b : Blk) (h : Hdr) : (s.setHdr b h).mvf = s.mvf := rfl
@[simp] theorem State.setHdr_pwr (s : State) (b : Blk) (h : Hdr) : (s.setHdr b h).pwr = s.pwr := rfl
@[simp] theorem State.setHdr_aon (s : State) (b : Blk) (h : Hdr) : (s.setHdr b h).aon = s.aon := rfl
@[simp] theorem State.setHdr_flt (s : State) (b : Blk) (h : Hdr) : (s.setHdr b h).flt = s.flt := rfl
@[simp] theorem State.setHdr_mem (s : State) (b : Blk) (h : Hdr) : (s.setHdr b h).mem = s.mem := rfl
@[simp] theorem State.setHdr_parBad (s : State) (b : Blk) (h : Hdr) : (s.setHdr b h).parBad = s.parBad := rfl
@[simp] theorem State.setHdr_now (s : State) (b : Blk) (h : Hdr) : (s.setHdr b h).now = s.now := rfl
@[simp] theorem State.setHdr_free (s : State) (b : Blk) (h : Hdr) : (s.setHdr b h).free = s.free := rfl
@[simp] theorem State.setHdr_stamp (s : State) (b : Blk) (h : Hdr) : (s.setHdr b h).stamp = s.stamp := rfl
@[simp] theorem State.setHdr_answer (s : State) (b : Blk) (h : Hdr) : (s.setHdr b h).answer = s.answer := rfl
@[simp] theorem State.setHdr_sent (s : State) (b : Blk) (h : Hdr) : (s.setHdr b h).sent = s.sent := rfl
@[simp] theorem State.setHdr_repUp (s : State) (b : Blk) (h : Hdr) : (s.setHdr b h).repUp = s.repUp := rfl
@[simp] theorem State.setHdr_flmOld (s : State) (b : Blk) (h : Hdr) : (s.setHdr b h).flmOld = s.flmOld := rfl
@[simp] theorem State.setHdr_pending (s : State) (b : Blk) (h : Hdr) : (s.setHdr b h).pending = s.pending := rfl

/-! ### State.modHdr -/
@[simp] theorem State.modHdr_pins (s : State) (b : Blk) (f : Hdr → Hdr) : (s.modHdr b f).pins = s.pins := rfl
@[simp] theorem State.modHdr_rst (s : State) (b : Blk) (f : Hdr → Hdr) : (s.modHdr b f).rst = s.rst := rfl
@[simp] theorem State.modHdr_clk (s : State) (b : Blk) (f : Hdr → Hdr) : (s.modHdr b f).clk = s.clk := rfl
@[simp] theorem State.modHdr_opt (s : State) (b : Blk) (f : Hdr → Hdr) : (s.modHdr b f).opt = s.opt := rfl
@[simp] theorem State.modHdr_sys (s : State) (b : Blk) (f : Hdr → Hdr) : (s.modHdr b f).sys = s.sys := rfl
@[simp] theorem State.modHdr_dbg (s : State) (b : Blk) (f : Hdr → Hdr) : (s.modHdr b f).dbg = s.dbg := rfl
@[simp] theorem State.modHdr_bkp (s : State) (b : Blk) (f : Hdr → Hdr) : (s.modHdr b f).bkp = s.bkp := rfl
@[simp] theorem State.modHdr_upl (s : State) (b : Blk) (f : Hdr → Hdr) : (s.modHdr b f).upl = s.upl := rfl
@[simp] theorem State.modHdr_hub (s : State) (b : Blk) (f : Hdr → Hdr) : (s.modHdr b f).hub = s.hub := rfl
@[simp] theorem State.modHdr_ep0 (s : State) (b : Blk) (f : Hdr → Hdr) : (s.modHdr b f).ep0 = s.ep0 := rfl
@[simp] theorem State.modHdr_beps (s : State) (b : Blk) (f : Hdr → Hdr) : (s.modHdr b f).beps = s.beps := rfl
@[simp] theorem State.modHdr_ttb (s : State) (b : Blk) (f : Hdr → Hdr) : (s.modHdr b f).ttb = s.ttb := rfl
@[simp] theorem State.modHdr_ports (s : State) (b : Blk) (f : Hdr → Hdr) : (s.modHdr b f).ports = s.ports := rfl
@[simp] theorem State.modHdr_lastRise (s : State) (b : Blk) (f : Hdr → Hdr) : (s.modHdr b f).lastRise = s.lastRise := rfl
@[simp] theorem State.modHdr_xlt (s : State) (b : Blk) (f : Hdr → Hdr) : (s.modHdr b f).xlt = s.xlt := rfl
@[simp] theorem State.modHdr_jx (s : State) (b : Blk) (f : Hdr → Hdr) : (s.modHdr b f).jx = s.jx := rfl
@[simp] theorem State.modHdr_mbr (s : State) (b : Blk) (f : Hdr → Hdr) : (s.modHdr b f).mbr = s.mbr := rfl
@[simp] theorem State.modHdr_mvf (s : State) (b : Blk) (f : Hdr → Hdr) : (s.modHdr b f).mvf = s.mvf := rfl
@[simp] theorem State.modHdr_pwr (s : State) (b : Blk) (f : Hdr → Hdr) : (s.modHdr b f).pwr = s.pwr := rfl
@[simp] theorem State.modHdr_aon (s : State) (b : Blk) (f : Hdr → Hdr) : (s.modHdr b f).aon = s.aon := rfl
@[simp] theorem State.modHdr_flt (s : State) (b : Blk) (f : Hdr → Hdr) : (s.modHdr b f).flt = s.flt := rfl
@[simp] theorem State.modHdr_mem (s : State) (b : Blk) (f : Hdr → Hdr) : (s.modHdr b f).mem = s.mem := rfl
@[simp] theorem State.modHdr_parBad (s : State) (b : Blk) (f : Hdr → Hdr) : (s.modHdr b f).parBad = s.parBad := rfl
@[simp] theorem State.modHdr_now (s : State) (b : Blk) (f : Hdr → Hdr) : (s.modHdr b f).now = s.now := rfl
@[simp] theorem State.modHdr_free (s : State) (b : Blk) (f : Hdr → Hdr) : (s.modHdr b f).free = s.free := rfl
@[simp] theorem State.modHdr_stamp (s : State) (b : Blk) (f : Hdr → Hdr) : (s.modHdr b f).stamp = s.stamp := rfl
@[simp] theorem State.modHdr_answer (s : State) (b : Blk) (f : Hdr → Hdr) : (s.modHdr b f).answer = s.answer := rfl
@[simp] theorem State.modHdr_sent (s : State) (b : Blk) (f : Hdr → Hdr) : (s.modHdr b f).sent = s.sent := rfl
@[simp] theorem State.modHdr_repUp (s : State) (b : Blk) (f : Hdr → Hdr) : (s.modHdr b f).repUp = s.repUp := rfl
@[simp] theorem State.modHdr_flmOld (s : State) (b : Blk) (f : Hdr → Hdr) : (s.modHdr b f).flmOld = s.flmOld := rfl
@[simp] theorem State.modHdr_pending (s : State) (b : Blk) (f : Hdr → Hdr) : (s.modHdr b f).pending = s.pending := rfl

/-! ### State.setPort -/
@[simp] theorem State.setPort_hdrs (s : State) (n : Port) (p : PortSt) : (s.setPort n p).hdrs = s.hdrs := rfl
@[simp] theorem State.setPort_pins (s : State) (n : Port) (p : PortSt) : (s.setPort n p).pins = s.pins := rfl
@[simp] theorem State.setPort_rst (s : State) (n : Port) (p : PortSt) : (s.setPort n p).rst = s.rst := rfl
@[simp] theorem State.setPort_clk (s : State) (n : Port) (p : PortSt) : (s.setPort n p).clk = s.clk := rfl
@[simp] theorem State.setPort_opt (s : State) (n : Port) (p : PortSt) : (s.setPort n p).opt = s.opt := rfl
@[simp] theorem State.setPort_sys (s : State) (n : Port) (p : PortSt) : (s.setPort n p).sys = s.sys := rfl
@[simp] theorem State.setPort_dbg (s : State) (n : Port) (p : PortSt) : (s.setPort n p).dbg = s.dbg := rfl
@[simp] theorem State.setPort_bkp (s : State) (n : Port) (p : PortSt) : (s.setPort n p).bkp = s.bkp := rfl
@[simp] theorem State.setPort_upl (s : State) (n : Port) (p : PortSt) : (s.setPort n p).upl = s.upl := rfl
@[simp] theorem State.setPort_hub (s : State) (n : Port) (p : PortSt) : (s.setPort n p).hub = s.hub := rfl
@[simp] theorem State.setPort_ep0 (s : State) (n : Port) (p : PortSt) : (s.setPort n p).ep0 = s.ep0 := rfl
@[simp] theorem State.setPort_beps (s : State) (n : Port) (p : PortSt) : (s.setPort n p).beps = s.beps := rfl
@[simp] theorem State.setPort_ttb (s : State) (n : Port) (p : PortSt) : (s.setPort n p).ttb = s.ttb := rfl
@[simp] theorem State.setPort_lastRise (s : State) (n : Port) (p : PortSt) : (s.setPort n p).lastRise = s.lastRise := rfl
@[simp] theorem State.setPort_xlt (s : State) (n : Port) (p : PortSt) : (s.setPort n p).xlt = s.xlt := rfl
@[simp] theorem State.setPort_jx (s : State) (n : Port) (p : PortSt) : (s.setPort n p).jx = s.jx := rfl
@[simp] theorem State.setPort_mbr (s : State) (n : Port) (p : PortSt) : (s.setPort n p).mbr = s.mbr := rfl
@[simp] theorem State.setPort_mvf (s : State) (n : Port) (p : PortSt) : (s.setPort n p).mvf = s.mvf := rfl
@[simp] theorem State.setPort_pwr (s : State) (n : Port) (p : PortSt) : (s.setPort n p).pwr = s.pwr := rfl
@[simp] theorem State.setPort_aon (s : State) (n : Port) (p : PortSt) : (s.setPort n p).aon = s.aon := rfl
@[simp] theorem State.setPort_flt (s : State) (n : Port) (p : PortSt) : (s.setPort n p).flt = s.flt := rfl
@[simp] theorem State.setPort_mem (s : State) (n : Port) (p : PortSt) : (s.setPort n p).mem = s.mem := rfl
@[simp] theorem State.setPort_parBad (s : State) (n : Port) (p : PortSt) : (s.setPort n p).parBad = s.parBad := rfl
@[simp] theorem State.setPort_now (s : State) (n : Port) (p : PortSt) : (s.setPort n p).now = s.now := rfl
@[simp] theorem State.setPort_free (s : State) (n : Port) (p : PortSt) : (s.setPort n p).free = s.free := rfl
@[simp] theorem State.setPort_stamp (s : State) (n : Port) (p : PortSt) : (s.setPort n p).stamp = s.stamp := rfl
@[simp] theorem State.setPort_answer (s : State) (n : Port) (p : PortSt) : (s.setPort n p).answer = s.answer := rfl
@[simp] theorem State.setPort_sent (s : State) (n : Port) (p : PortSt) : (s.setPort n p).sent = s.sent := rfl
@[simp] theorem State.setPort_repUp (s : State) (n : Port) (p : PortSt) : (s.setPort n p).repUp = s.repUp := rfl
@[simp] theorem State.setPort_flmOld (s : State) (n : Port) (p : PortSt) : (s.setPort n p).flmOld = s.flmOld := rfl
@[simp] theorem State.setPort_pending (s : State) (n : Port) (p : PortSt) : (s.setPort n p).pending = s.pending := rfl

/-! ### State.modPort -/
@[simp] theorem State.modPort_hdrs (s : State) (n : Port) (f : PortSt → PortSt) : (s.modPort n f).hdrs = s.hdrs := rfl
@[simp] theorem State.modPort_pins (s : State) (n : Port) (f : PortSt → PortSt) : (s.modPort n f).pins = s.pins := rfl
@[simp] theorem State.modPort_rst (s : State) (n : Port) (f : PortSt → PortSt) : (s.modPort n f).rst = s.rst := rfl
@[simp] theorem State.modPort_clk (s : State) (n : Port) (f : PortSt → PortSt) : (s.modPort n f).clk = s.clk := rfl
@[simp] theorem State.modPort_opt (s : State) (n : Port) (f : PortSt → PortSt) : (s.modPort n f).opt = s.opt := rfl
@[simp] theorem State.modPort_sys (s : State) (n : Port) (f : PortSt → PortSt) : (s.modPort n f).sys = s.sys := rfl
@[simp] theorem State.modPort_dbg (s : State) (n : Port) (f : PortSt → PortSt) : (s.modPort n f).dbg = s.dbg := rfl
@[simp] theorem State.modPort_bkp (s : State) (n : Port) (f : PortSt → PortSt) : (s.modPort n f).bkp = s.bkp := rfl
@[simp] theorem State.modPort_upl (s : State) (n : Port) (f : PortSt → PortSt) : (s.modPort n f).upl = s.upl := rfl
@[simp] theorem State.modPort_hub (s : State) (n : Port) (f : PortSt → PortSt) : (s.modPort n f).hub = s.hub := rfl
@[simp] theorem State.modPort_ep0 (s : State) (n : Port) (f : PortSt → PortSt) : (s.modPort n f).ep0 = s.ep0 := rfl
@[simp] theorem State.modPort_beps (s : State) (n : Port) (f : PortSt → PortSt) : (s.modPort n f).beps = s.beps := rfl
@[simp] theorem State.modPort_ttb (s : State) (n : Port) (f : PortSt → PortSt) : (s.modPort n f).ttb = s.ttb := rfl
@[simp] theorem State.modPort_lastRise (s : State) (n : Port) (f : PortSt → PortSt) : (s.modPort n f).lastRise = s.lastRise := rfl
@[simp] theorem State.modPort_xlt (s : State) (n : Port) (f : PortSt → PortSt) : (s.modPort n f).xlt = s.xlt := rfl
@[simp] theorem State.modPort_jx (s : State) (n : Port) (f : PortSt → PortSt) : (s.modPort n f).jx = s.jx := rfl
@[simp] theorem State.modPort_mbr (s : State) (n : Port) (f : PortSt → PortSt) : (s.modPort n f).mbr = s.mbr := rfl
@[simp] theorem State.modPort_mvf (s : State) (n : Port) (f : PortSt → PortSt) : (s.modPort n f).mvf = s.mvf := rfl
@[simp] theorem State.modPort_pwr (s : State) (n : Port) (f : PortSt → PortSt) : (s.modPort n f).pwr = s.pwr := rfl
@[simp] theorem State.modPort_aon (s : State) (n : Port) (f : PortSt → PortSt) : (s.modPort n f).aon = s.aon := rfl
@[simp] theorem State.modPort_flt (s : State) (n : Port) (f : PortSt → PortSt) : (s.modPort n f).flt = s.flt := rfl
@[simp] theorem State.modPort_mem (s : State) (n : Port) (f : PortSt → PortSt) : (s.modPort n f).mem = s.mem := rfl
@[simp] theorem State.modPort_parBad (s : State) (n : Port) (f : PortSt → PortSt) : (s.modPort n f).parBad = s.parBad := rfl
@[simp] theorem State.modPort_now (s : State) (n : Port) (f : PortSt → PortSt) : (s.modPort n f).now = s.now := rfl
@[simp] theorem State.modPort_free (s : State) (n : Port) (f : PortSt → PortSt) : (s.modPort n f).free = s.free := rfl
@[simp] theorem State.modPort_stamp (s : State) (n : Port) (f : PortSt → PortSt) : (s.modPort n f).stamp = s.stamp := rfl
@[simp] theorem State.modPort_answer (s : State) (n : Port) (f : PortSt → PortSt) : (s.modPort n f).answer = s.answer := rfl
@[simp] theorem State.modPort_sent (s : State) (n : Port) (f : PortSt → PortSt) : (s.modPort n f).sent = s.sent := rfl
@[simp] theorem State.modPort_repUp (s : State) (n : Port) (f : PortSt → PortSt) : (s.modPort n f).repUp = s.repUp := rfl
@[simp] theorem State.modPort_flmOld (s : State) (n : Port) (f : PortSt → PortSt) : (s.modPort n f).flmOld = s.flmOld := rfl
@[simp] theorem State.modPort_pending (s : State) (n : Port) (f : PortSt → PortSt) : (s.modPort n f).pending = s.pending := rfl

/-! ### State.setXport -/
@[simp] theorem State.setXport_hdrs (s : State) (n : Port) (p : XPort) : (s.setXport n p).hdrs = s.hdrs := rfl
@[simp] theorem State.setXport_pins (s : State) (n : Port) (p : XPort) : (s.setXport n p).pins = s.pins := rfl
@[simp] theorem State.setXport_rst (s : State) (n : Port) (p : XPort) : (s.setXport n p).rst = s.rst := rfl
@[simp] theorem State.setXport_clk (s : State) (n : Port) (p : XPort) : (s.setXport n p).clk = s.clk := rfl
@[simp] theorem State.setXport_opt (s : State) (n : Port) (p : XPort) : (s.setXport n p).opt = s.opt := rfl
@[simp] theorem State.setXport_sys (s : State) (n : Port) (p : XPort) : (s.setXport n p).sys = s.sys := rfl
@[simp] theorem State.setXport_dbg (s : State) (n : Port) (p : XPort) : (s.setXport n p).dbg = s.dbg := rfl
@[simp] theorem State.setXport_bkp (s : State) (n : Port) (p : XPort) : (s.setXport n p).bkp = s.bkp := rfl
@[simp] theorem State.setXport_upl (s : State) (n : Port) (p : XPort) : (s.setXport n p).upl = s.upl := rfl
@[simp] theorem State.setXport_hub (s : State) (n : Port) (p : XPort) : (s.setXport n p).hub = s.hub := rfl
@[simp] theorem State.setXport_ep0 (s : State) (n : Port) (p : XPort) : (s.setXport n p).ep0 = s.ep0 := rfl
@[simp] theorem State.setXport_beps (s : State) (n : Port) (p : XPort) : (s.setXport n p).beps = s.beps := rfl
@[simp] theorem State.setXport_ttb (s : State) (n : Port) (p : XPort) : (s.setXport n p).ttb = s.ttb := rfl
@[simp] theorem State.setXport_ports (s : State) (n : Port) (p : XPort) : (s.setXport n p).ports = s.ports := rfl
@[simp] theorem State.setXport_lastRise (s : State) (n : Port) (p : XPort) : (s.setXport n p).lastRise = s.lastRise := rfl
@[simp] theorem State.setXport_jx (s : State) (n : Port) (p : XPort) : (s.setXport n p).jx = s.jx := rfl
@[simp] theorem State.setXport_mbr (s : State) (n : Port) (p : XPort) : (s.setXport n p).mbr = s.mbr := rfl
@[simp] theorem State.setXport_mvf (s : State) (n : Port) (p : XPort) : (s.setXport n p).mvf = s.mvf := rfl
@[simp] theorem State.setXport_pwr (s : State) (n : Port) (p : XPort) : (s.setXport n p).pwr = s.pwr := rfl
@[simp] theorem State.setXport_aon (s : State) (n : Port) (p : XPort) : (s.setXport n p).aon = s.aon := rfl
@[simp] theorem State.setXport_flt (s : State) (n : Port) (p : XPort) : (s.setXport n p).flt = s.flt := rfl
@[simp] theorem State.setXport_mem (s : State) (n : Port) (p : XPort) : (s.setXport n p).mem = s.mem := rfl
@[simp] theorem State.setXport_parBad (s : State) (n : Port) (p : XPort) : (s.setXport n p).parBad = s.parBad := rfl
@[simp] theorem State.setXport_now (s : State) (n : Port) (p : XPort) : (s.setXport n p).now = s.now := rfl
@[simp] theorem State.setXport_free (s : State) (n : Port) (p : XPort) : (s.setXport n p).free = s.free := rfl
@[simp] theorem State.setXport_stamp (s : State) (n : Port) (p : XPort) : (s.setXport n p).stamp = s.stamp := rfl
@[simp] theorem State.setXport_answer (s : State) (n : Port) (p : XPort) : (s.setXport n p).answer = s.answer := rfl
@[simp] theorem State.setXport_sent (s : State) (n : Port) (p : XPort) : (s.setXport n p).sent = s.sent := rfl
@[simp] theorem State.setXport_repUp (s : State) (n : Port) (p : XPort) : (s.setXport n p).repUp = s.repUp := rfl
@[simp] theorem State.setXport_flmOld (s : State) (n : Port) (p : XPort) : (s.setXport n p).flmOld = s.flmOld := rfl
@[simp] theorem State.setXport_pending (s : State) (n : Port) (p : XPort) : (s.setXport n p).pending = s.pending := rfl

/-! ### State.modXport -/
@[simp] theorem State.modXport_hdrs (s : State) (n : Port) (f : XPort → XPort) : (s.modXport n f).hdrs = s.hdrs := rfl
@[simp] theorem State.modXport_pins (s : State) (n : Port) (f : XPort → XPort) : (s.modXport n f).pins = s.pins := rfl
@[simp] theorem State.modXport_rst (s : State) (n : Port) (f : XPort → XPort) : (s.modXport n f).rst = s.rst := rfl
@[simp] theorem State.modXport_clk (s : State) (n : Port) (f : XPort → XPort) : (s.modXport n f).clk = s.clk := rfl
@[simp] theorem State.modXport_opt (s : State) (n : Port) (f : XPort → XPort) : (s.modXport n f).opt = s.opt := rfl
@[simp] theorem State.modXport_sys (s : State) (n : Port) (f : XPort → XPort) : (s.modXport n f).sys = s.sys := rfl
@[simp] theorem State.modXport_dbg (s : State) (n : Port) (f : XPort → XPort) : (s.modXport n f).dbg = s.dbg := rfl
@[simp] theorem State.modXport_bkp (s : State) (n : Port) (f : XPort → XPort) : (s.modXport n f).bkp = s.bkp := rfl
@[simp] theorem State.modXport_upl (s : State) (n : Port) (f : XPort → XPort) : (s.modXport n f).upl = s.upl := rfl
@[simp] theorem State.modXport_hub (s : State) (n : Port) (f : XPort → XPort) : (s.modXport n f).hub = s.hub := rfl
@[simp] theorem State.modXport_ep0 (s : State) (n : Port) (f : XPort → XPort) : (s.modXport n f).ep0 = s.ep0 := rfl
@[simp] theorem State.modXport_beps (s : State) (n : Port) (f : XPort → XPort) : (s.modXport n f).beps = s.beps := rfl
@[simp] theorem State.modXport_ttb (s : State) (n : Port) (f : XPort → XPort) : (s.modXport n f).ttb = s.ttb := rfl
@[simp] theorem State.modXport_ports (s : State) (n : Port) (f : XPort → XPort) : (s.modXport n f).ports = s.ports := rfl
@[simp] theorem State.modXport_lastRise (s : State) (n : Port) (f : XPort → XPort) : (s.modXport n f).lastRise = s.lastRise := rfl
@[simp] theorem State.modXport_jx (s : State) (n : Port) (f : XPort → XPort) : (s.modXport n f).jx = s.jx := rfl
@[simp] theorem State.modXport_mbr (s : State) (n : Port) (f : XPort → XPort) : (s.modXport n f).mbr = s.mbr := rfl
@[simp] theorem State.modXport_mvf (s : State) (n : Port) (f : XPort → XPort) : (s.modXport n f).mvf = s.mvf := rfl
@[simp] theorem State.modXport_pwr (s : State) (n : Port) (f : XPort → XPort) : (s.modXport n f).pwr = s.pwr := rfl
@[simp] theorem State.modXport_aon (s : State) (n : Port) (f : XPort → XPort) : (s.modXport n f).aon = s.aon := rfl
@[simp] theorem State.modXport_flt (s : State) (n : Port) (f : XPort → XPort) : (s.modXport n f).flt = s.flt := rfl
@[simp] theorem State.modXport_mem (s : State) (n : Port) (f : XPort → XPort) : (s.modXport n f).mem = s.mem := rfl
@[simp] theorem State.modXport_parBad (s : State) (n : Port) (f : XPort → XPort) : (s.modXport n f).parBad = s.parBad := rfl
@[simp] theorem State.modXport_now (s : State) (n : Port) (f : XPort → XPort) : (s.modXport n f).now = s.now := rfl
@[simp] theorem State.modXport_free (s : State) (n : Port) (f : XPort → XPort) : (s.modXport n f).free = s.free := rfl
@[simp] theorem State.modXport_stamp (s : State) (n : Port) (f : XPort → XPort) : (s.modXport n f).stamp = s.stamp := rfl
@[simp] theorem State.modXport_answer (s : State) (n : Port) (f : XPort → XPort) : (s.modXport n f).answer = s.answer := rfl
@[simp] theorem State.modXport_sent (s : State) (n : Port) (f : XPort → XPort) : (s.modXport n f).sent = s.sent := rfl
@[simp] theorem State.modXport_repUp (s : State) (n : Port) (f : XPort → XPort) : (s.modXport n f).repUp = s.repUp := rfl
@[simp] theorem State.modXport_flmOld (s : State) (n : Port) (f : XPort → XPort) : (s.modXport n f).flmOld = s.flmOld := rfl
@[simp] theorem State.modXport_pending (s : State) (n : Port) (f : XPort → XPort) : (s.modXport n f).pending = s.pending := rfl

/-! ### State.setChan -/
@[simp] theorem State.setChan_hdrs (s : State) (c : Chan) (j : Jx) : (s.setChan c j).hdrs = s.hdrs := rfl
@[simp] theorem State.setChan_pins (s : State) (c : Chan) (j : Jx) : (s.setChan c j).pins = s.pins := rfl
@[simp] theorem State.setChan_rst (s : State) (c : Chan) (j : Jx) : (s.setChan c j).rst = s.rst := rfl
@[simp] theorem State.setChan_clk (s : State) (c : Chan) (j : Jx) : (s.setChan c j).clk = s.clk := rfl
@[simp] theorem State.setChan_opt (s : State) (c : Chan) (j : Jx) : (s.setChan c j).opt = s.opt := rfl
@[simp] theorem State.setChan_sys (s : State) (c : Chan) (j : Jx) : (s.setChan c j).sys = s.sys := rfl
@[simp] theorem State.setChan_dbg (s : State) (c : Chan) (j : Jx) : (s.setChan c j).dbg = s.dbg := rfl
@[simp] theorem State.setChan_bkp (s : State) (c : Chan) (j : Jx) : (s.setChan c j).bkp = s.bkp := rfl
@[simp] theorem State.setChan_upl (s : State) (c : Chan) (j : Jx) : (s.setChan c j).upl = s.upl := rfl
@[simp] theorem State.setChan_hub (s : State) (c : Chan) (j : Jx) : (s.setChan c j).hub = s.hub := rfl
@[simp] theorem State.setChan_ep0 (s : State) (c : Chan) (j : Jx) : (s.setChan c j).ep0 = s.ep0 := rfl
@[simp] theorem State.setChan_beps (s : State) (c : Chan) (j : Jx) : (s.setChan c j).beps = s.beps := rfl
@[simp] theorem State.setChan_ttb (s : State) (c : Chan) (j : Jx) : (s.setChan c j).ttb = s.ttb := rfl
@[simp] theorem State.setChan_ports (s : State) (c : Chan) (j : Jx) : (s.setChan c j).ports = s.ports := rfl
@[simp] theorem State.setChan_lastRise (s : State) (c : Chan) (j : Jx) : (s.setChan c j).lastRise = s.lastRise := rfl
@[simp] theorem State.setChan_xlt (s : State) (c : Chan) (j : Jx) : (s.setChan c j).xlt = s.xlt := rfl
@[simp] theorem State.setChan_mbr (s : State) (c : Chan) (j : Jx) : (s.setChan c j).mbr = s.mbr := rfl
@[simp] theorem State.setChan_mvf (s : State) (c : Chan) (j : Jx) : (s.setChan c j).mvf = s.mvf := rfl
@[simp] theorem State.setChan_pwr (s : State) (c : Chan) (j : Jx) : (s.setChan c j).pwr = s.pwr := rfl
@[simp] theorem State.setChan_aon (s : State) (c : Chan) (j : Jx) : (s.setChan c j).aon = s.aon := rfl
@[simp] theorem State.setChan_flt (s : State) (c : Chan) (j : Jx) : (s.setChan c j).flt = s.flt := rfl
@[simp] theorem State.setChan_mem (s : State) (c : Chan) (j : Jx) : (s.setChan c j).mem = s.mem := rfl
@[simp] theorem State.setChan_parBad (s : State) (c : Chan) (j : Jx) : (s.setChan c j).parBad = s.parBad := rfl
@[simp] theorem State.setChan_now (s : State) (c : Chan) (j : Jx) : (s.setChan c j).now = s.now := rfl
@[simp] theorem State.setChan_free (s : State) (c : Chan) (j : Jx) : (s.setChan c j).free = s.free := rfl
@[simp] theorem State.setChan_stamp (s : State) (c : Chan) (j : Jx) : (s.setChan c j).stamp = s.stamp := rfl
@[simp] theorem State.setChan_answer (s : State) (c : Chan) (j : Jx) : (s.setChan c j).answer = s.answer := rfl
@[simp] theorem State.setChan_sent (s : State) (c : Chan) (j : Jx) : (s.setChan c j).sent = s.sent := rfl
@[simp] theorem State.setChan_repUp (s : State) (c : Chan) (j : Jx) : (s.setChan c j).repUp = s.repUp := rfl
@[simp] theorem State.setChan_flmOld (s : State) (c : Chan) (j : Jx) : (s.setChan c j).flmOld = s.flmOld := rfl
@[simp] theorem State.setChan_pending (s : State) (c : Chan) (j : Jx) : (s.setChan c j).pending = s.pending := rfl

/-! ### State.modChan -/
@[simp] theorem State.modChan_hdrs (s : State) (c : Chan) (f : Jx → Jx) : (s.modChan c f).hdrs = s.hdrs := rfl
@[simp] theorem State.modChan_pins (s : State) (c : Chan) (f : Jx → Jx) : (s.modChan c f).pins = s.pins := rfl
@[simp] theorem State.modChan_rst (s : State) (c : Chan) (f : Jx → Jx) : (s.modChan c f).rst = s.rst := rfl
@[simp] theorem State.modChan_clk (s : State) (c : Chan) (f : Jx → Jx) : (s.modChan c f).clk = s.clk := rfl
@[simp] theorem State.modChan_opt (s : State) (c : Chan) (f : Jx → Jx) : (s.modChan c f).opt = s.opt := rfl
@[simp] theorem State.modChan_sys (s : State) (c : Chan) (f : Jx → Jx) : (s.modChan c f).sys = s.sys := rfl
@[simp] theorem State.modChan_dbg (s : State) (c : Chan) (f : Jx → Jx) : (s.modChan c f).dbg = s.dbg := rfl
@[simp] theorem State.modChan_bkp (s : State) (c : Chan) (f : Jx → Jx) : (s.modChan c f).bkp = s.bkp := rfl
@[simp] theorem State.modChan_upl (s : State) (c : Chan) (f : Jx → Jx) : (s.modChan c f).upl = s.upl := rfl
@[simp] theorem State.modChan_hub (s : State) (c : Chan) (f : Jx → Jx) : (s.modChan c f).hub = s.hub := rfl
@[simp] theorem State.modChan_ep0 (s : State) (c : Chan) (f : Jx → Jx) : (s.modChan c f).ep0 = s.ep0 := rfl
@[simp] theorem State.modChan_beps (s : State) (c : Chan) (f : Jx → Jx) : (s.modChan c f).beps = s.beps := rfl
@[simp] theorem State.modChan_ttb (s : State) (c : Chan) (f : Jx → Jx) : (s.modChan c f).ttb = s.ttb := rfl
@[simp] theorem State.modChan_ports (s : State) (c : Chan) (f : Jx → Jx) : (s.modChan c f).ports = s.ports := rfl
@[simp] theorem State.modChan_lastRise (s : State) (c : Chan) (f : Jx → Jx) : (s.modChan c f).lastRise = s.lastRise := rfl
@[simp] theorem State.modChan_xlt (s : State) (c : Chan) (f : Jx → Jx) : (s.modChan c f).xlt = s.xlt := rfl
@[simp] theorem State.modChan_mbr (s : State) (c : Chan) (f : Jx → Jx) : (s.modChan c f).mbr = s.mbr := rfl
@[simp] theorem State.modChan_mvf (s : State) (c : Chan) (f : Jx → Jx) : (s.modChan c f).mvf = s.mvf := rfl
@[simp] theorem State.modChan_pwr (s : State) (c : Chan) (f : Jx → Jx) : (s.modChan c f).pwr = s.pwr := rfl
@[simp] theorem State.modChan_aon (s : State) (c : Chan) (f : Jx → Jx) : (s.modChan c f).aon = s.aon := rfl
@[simp] theorem State.modChan_flt (s : State) (c : Chan) (f : Jx → Jx) : (s.modChan c f).flt = s.flt := rfl
@[simp] theorem State.modChan_mem (s : State) (c : Chan) (f : Jx → Jx) : (s.modChan c f).mem = s.mem := rfl
@[simp] theorem State.modChan_parBad (s : State) (c : Chan) (f : Jx → Jx) : (s.modChan c f).parBad = s.parBad := rfl
@[simp] theorem State.modChan_now (s : State) (c : Chan) (f : Jx → Jx) : (s.modChan c f).now = s.now := rfl
@[simp] theorem State.modChan_free (s : State) (c : Chan) (f : Jx → Jx) : (s.modChan c f).free = s.free := rfl
@[simp] theorem State.modChan_stamp (s : State) (c : Chan) (f : Jx → Jx) : (s.modChan c f).stamp = s.stamp := rfl
@[simp] theorem State.modChan_answer (s : State) (c : Chan) (f : Jx → Jx) : (s.modChan c f).answer = s.answer := rfl
@[simp] theorem State.modChan_sent (s : State) (c : Chan) (f : Jx → Jx) : (s.modChan c f).sent = s.sent := rfl
@[simp] theorem State.modChan_repUp (s : State) (c : Chan) (f : Jx → Jx) : (s.modChan c f).repUp = s.repUp := rfl
@[simp] theorem State.modChan_flmOld (s : State) (c : Chan) (f : Jx → Jx) : (s.modChan c f).flmOld = s.flmOld := rfl
@[simp] theorem State.modChan_pending (s : State) (c : Chan) (f : Jx → Jx) : (s.modChan c f).pending = s.pending := rfl

/-! ### State.setInst -/
@[simp] theorem State.setInst_hdrs (s : State) (i : Inst) (m : Mvf) : (s.setInst i m).hdrs = s.hdrs := rfl
@[simp] theorem State.setInst_pins (s : State) (i : Inst) (m : Mvf) : (s.setInst i m).pins = s.pins := rfl
@[simp] theorem State.setInst_rst (s : State) (i : Inst) (m : Mvf) : (s.setInst i m).rst = s.rst := rfl
@[simp] theorem State.setInst_clk (s : State) (i : Inst) (m : Mvf) : (s.setInst i m).clk = s.clk := rfl
@[simp] theorem State.setInst_opt (s : State) (i : Inst) (m : Mvf) : (s.setInst i m).opt = s.opt := rfl
@[simp] theorem State.setInst_sys (s : State) (i : Inst) (m : Mvf) : (s.setInst i m).sys = s.sys := rfl
@[simp] theorem State.setInst_dbg (s : State) (i : Inst) (m : Mvf) : (s.setInst i m).dbg = s.dbg := rfl
@[simp] theorem State.setInst_bkp (s : State) (i : Inst) (m : Mvf) : (s.setInst i m).bkp = s.bkp := rfl
@[simp] theorem State.setInst_upl (s : State) (i : Inst) (m : Mvf) : (s.setInst i m).upl = s.upl := rfl
@[simp] theorem State.setInst_hub (s : State) (i : Inst) (m : Mvf) : (s.setInst i m).hub = s.hub := rfl
@[simp] theorem State.setInst_ep0 (s : State) (i : Inst) (m : Mvf) : (s.setInst i m).ep0 = s.ep0 := rfl
@[simp] theorem State.setInst_beps (s : State) (i : Inst) (m : Mvf) : (s.setInst i m).beps = s.beps := rfl
@[simp] theorem State.setInst_ttb (s : State) (i : Inst) (m : Mvf) : (s.setInst i m).ttb = s.ttb := rfl
@[simp] theorem State.setInst_ports (s : State) (i : Inst) (m : Mvf) : (s.setInst i m).ports = s.ports := rfl
@[simp] theorem State.setInst_lastRise (s : State) (i : Inst) (m : Mvf) : (s.setInst i m).lastRise = s.lastRise := rfl
@[simp] theorem State.setInst_xlt (s : State) (i : Inst) (m : Mvf) : (s.setInst i m).xlt = s.xlt := rfl
@[simp] theorem State.setInst_jx (s : State) (i : Inst) (m : Mvf) : (s.setInst i m).jx = s.jx := rfl
@[simp] theorem State.setInst_mbr (s : State) (i : Inst) (m : Mvf) : (s.setInst i m).mbr = s.mbr := rfl
@[simp] theorem State.setInst_pwr (s : State) (i : Inst) (m : Mvf) : (s.setInst i m).pwr = s.pwr := rfl
@[simp] theorem State.setInst_aon (s : State) (i : Inst) (m : Mvf) : (s.setInst i m).aon = s.aon := rfl
@[simp] theorem State.setInst_flt (s : State) (i : Inst) (m : Mvf) : (s.setInst i m).flt = s.flt := rfl
@[simp] theorem State.setInst_mem (s : State) (i : Inst) (m : Mvf) : (s.setInst i m).mem = s.mem := rfl
@[simp] theorem State.setInst_parBad (s : State) (i : Inst) (m : Mvf) : (s.setInst i m).parBad = s.parBad := rfl
@[simp] theorem State.setInst_now (s : State) (i : Inst) (m : Mvf) : (s.setInst i m).now = s.now := rfl
@[simp] theorem State.setInst_free (s : State) (i : Inst) (m : Mvf) : (s.setInst i m).free = s.free := rfl
@[simp] theorem State.setInst_stamp (s : State) (i : Inst) (m : Mvf) : (s.setInst i m).stamp = s.stamp := rfl
@[simp] theorem State.setInst_answer (s : State) (i : Inst) (m : Mvf) : (s.setInst i m).answer = s.answer := rfl
@[simp] theorem State.setInst_sent (s : State) (i : Inst) (m : Mvf) : (s.setInst i m).sent = s.sent := rfl
@[simp] theorem State.setInst_repUp (s : State) (i : Inst) (m : Mvf) : (s.setInst i m).repUp = s.repUp := rfl
@[simp] theorem State.setInst_flmOld (s : State) (i : Inst) (m : Mvf) : (s.setInst i m).flmOld = s.flmOld := rfl
@[simp] theorem State.setInst_pending (s : State) (i : Inst) (m : Mvf) : (s.setInst i m).pending = s.pending := rfl

/-! ### State.modInst -/
@[simp] theorem State.modInst_hdrs (s : State) (i : Inst) (f : Mvf → Mvf) : (s.modInst i f).hdrs = s.hdrs := rfl
@[simp] theorem State.modInst_pins (s : State) (i : Inst) (f : Mvf → Mvf) : (s.modInst i f).pins = s.pins := rfl
@[simp] theorem State.modInst_rst (s : State) (i : Inst) (f : Mvf → Mvf) : (s.modInst i f).rst = s.rst := rfl
@[simp] theorem State.modInst_clk (s : State) (i : Inst) (f : Mvf → Mvf) : (s.modInst i f).clk = s.clk := rfl
@[simp] theorem State.modInst_opt (s : State) (i : Inst) (f : Mvf → Mvf) : (s.modInst i f).opt = s.opt := rfl
@[simp] theorem State.modInst_sys (s : State) (i : Inst) (f : Mvf → Mvf) : (s.modInst i f).sys = s.sys := rfl
@[simp] theorem State.modInst_dbg (s : State) (i : Inst) (f : Mvf → Mvf) : (s.modInst i f).dbg = s.dbg := rfl
@[simp] theorem State.modInst_bkp (s : State) (i : Inst) (f : Mvf → Mvf) : (s.modInst i f).bkp = s.bkp := rfl
@[simp] theorem State.modInst_upl (s : State) (i : Inst) (f : Mvf → Mvf) : (s.modInst i f).upl = s.upl := rfl
@[simp] theorem State.modInst_hub (s : State) (i : Inst) (f : Mvf → Mvf) : (s.modInst i f).hub = s.hub := rfl
@[simp] theorem State.modInst_ep0 (s : State) (i : Inst) (f : Mvf → Mvf) : (s.modInst i f).ep0 = s.ep0 := rfl
@[simp] theorem State.modInst_beps (s : State) (i : Inst) (f : Mvf → Mvf) : (s.modInst i f).beps = s.beps := rfl
@[simp] theorem State.modInst_ttb (s : State) (i : Inst) (f : Mvf → Mvf) : (s.modInst i f).ttb = s.ttb := rfl
@[simp] theorem State.modInst_ports (s : State) (i : Inst) (f : Mvf → Mvf) : (s.modInst i f).ports = s.ports := rfl
@[simp] theorem State.modInst_lastRise (s : State) (i : Inst) (f : Mvf → Mvf) : (s.modInst i f).lastRise = s.lastRise := rfl
@[simp] theorem State.modInst_xlt (s : State) (i : Inst) (f : Mvf → Mvf) : (s.modInst i f).xlt = s.xlt := rfl
@[simp] theorem State.modInst_jx (s : State) (i : Inst) (f : Mvf → Mvf) : (s.modInst i f).jx = s.jx := rfl
@[simp] theorem State.modInst_mbr (s : State) (i : Inst) (f : Mvf → Mvf) : (s.modInst i f).mbr = s.mbr := rfl
@[simp] theorem State.modInst_pwr (s : State) (i : Inst) (f : Mvf → Mvf) : (s.modInst i f).pwr = s.pwr := rfl
@[simp] theorem State.modInst_aon (s : State) (i : Inst) (f : Mvf → Mvf) : (s.modInst i f).aon = s.aon := rfl
@[simp] theorem State.modInst_flt (s : State) (i : Inst) (f : Mvf → Mvf) : (s.modInst i f).flt = s.flt := rfl
@[simp] theorem State.modInst_mem (s : State) (i : Inst) (f : Mvf → Mvf) : (s.modInst i f).mem = s.mem := rfl
@[simp] theorem State.modInst_parBad (s : State) (i : Inst) (f : Mvf → Mvf) : (s.modInst i f).parBad = s.parBad := rfl
@[simp] theorem State.modInst_now (s : State) (i : Inst) (f : Mvf → Mvf) : (s.modInst i f).now = s.now := rfl
@[simp] theorem State.modInst_free (s : State) (i : Inst) (f : Mvf → Mvf) : (s.modInst i f).free = s.free := rfl
@[simp] theorem State.modInst_stamp (s : State) (i : Inst) (f : Mvf → Mvf) : (s.modInst i f).stamp = s.stamp := rfl
@[simp] theorem State.modInst_answer (s : State) (i : Inst) (f : Mvf → Mvf) : (s.modInst i f).answer = s.answer := rfl
@[simp] theorem State.modInst_sent (s : State) (i : Inst) (f : Mvf → Mvf) : (s.modInst i f).sent = s.sent := rfl
@[simp] theorem State.modInst_repUp (s : State) (i : Inst) (f : Mvf → Mvf) : (s.modInst i f).repUp = s.repUp := rfl
@[simp] theorem State.modInst_flmOld (s : State) (i : Inst) (f : Mvf → Mvf) : (s.modInst i f).flmOld = s.flmOld := rfl
@[simp] theorem State.modInst_pending (s : State) (i : Inst) (f : Mvf → Mvf) : (s.modInst i f).pending = s.pending := rfl

/-! ### State.setEp -/
@[simp] theorem State.setEp_hdrs (s : State) (f : Func) (e : Ep0) : (s.setEp f e).hdrs = s.hdrs := rfl
@[simp] theorem State.setEp_pins (s : State) (f : Func) (e : Ep0) : (s.setEp f e).pins = s.pins := rfl
@[simp] theorem State.setEp_rst (s : State) (f : Func) (e : Ep0) : (s.setEp f e).rst = s.rst := rfl
@[simp] theorem State.setEp_clk (s : State) (f : Func) (e : Ep0) : (s.setEp f e).clk = s.clk := rfl
@[simp] theorem State.setEp_opt (s : State) (f : Func) (e : Ep0) : (s.setEp f e).opt = s.opt := rfl
@[simp] theorem State.setEp_sys (s : State) (f : Func) (e : Ep0) : (s.setEp f e).sys = s.sys := rfl
@[simp] theorem State.setEp_dbg (s : State) (f : Func) (e : Ep0) : (s.setEp f e).dbg = s.dbg := rfl
@[simp] theorem State.setEp_bkp (s : State) (f : Func) (e : Ep0) : (s.setEp f e).bkp = s.bkp := rfl
@[simp] theorem State.setEp_upl (s : State) (f : Func) (e : Ep0) : (s.setEp f e).upl = s.upl := rfl
@[simp] theorem State.setEp_hub (s : State) (f : Func) (e : Ep0) : (s.setEp f e).hub = s.hub := rfl
@[simp] theorem State.setEp_beps (s : State) (f : Func) (e : Ep0) : (s.setEp f e).beps = s.beps := rfl
@[simp] theorem State.setEp_ttb (s : State) (f : Func) (e : Ep0) : (s.setEp f e).ttb = s.ttb := rfl
@[simp] theorem State.setEp_ports (s : State) (f : Func) (e : Ep0) : (s.setEp f e).ports = s.ports := rfl
@[simp] theorem State.setEp_lastRise (s : State) (f : Func) (e : Ep0) : (s.setEp f e).lastRise = s.lastRise := rfl
@[simp] theorem State.setEp_xlt (s : State) (f : Func) (e : Ep0) : (s.setEp f e).xlt = s.xlt := rfl
@[simp] theorem State.setEp_jx (s : State) (f : Func) (e : Ep0) : (s.setEp f e).jx = s.jx := rfl
@[simp] theorem State.setEp_mbr (s : State) (f : Func) (e : Ep0) : (s.setEp f e).mbr = s.mbr := rfl
@[simp] theorem State.setEp_mvf (s : State) (f : Func) (e : Ep0) : (s.setEp f e).mvf = s.mvf := rfl
@[simp] theorem State.setEp_pwr (s : State) (f : Func) (e : Ep0) : (s.setEp f e).pwr = s.pwr := rfl
@[simp] theorem State.setEp_aon (s : State) (f : Func) (e : Ep0) : (s.setEp f e).aon = s.aon := rfl
@[simp] theorem State.setEp_flt (s : State) (f : Func) (e : Ep0) : (s.setEp f e).flt = s.flt := rfl
@[simp] theorem State.setEp_mem (s : State) (f : Func) (e : Ep0) : (s.setEp f e).mem = s.mem := rfl
@[simp] theorem State.setEp_parBad (s : State) (f : Func) (e : Ep0) : (s.setEp f e).parBad = s.parBad := rfl
@[simp] theorem State.setEp_now (s : State) (f : Func) (e : Ep0) : (s.setEp f e).now = s.now := rfl
@[simp] theorem State.setEp_free (s : State) (f : Func) (e : Ep0) : (s.setEp f e).free = s.free := rfl
@[simp] theorem State.setEp_stamp (s : State) (f : Func) (e : Ep0) : (s.setEp f e).stamp = s.stamp := rfl
@[simp] theorem State.setEp_answer (s : State) (f : Func) (e : Ep0) : (s.setEp f e).answer = s.answer := rfl
@[simp] theorem State.setEp_sent (s : State) (f : Func) (e : Ep0) : (s.setEp f e).sent = s.sent := rfl
@[simp] theorem State.setEp_repUp (s : State) (f : Func) (e : Ep0) : (s.setEp f e).repUp = s.repUp := rfl
@[simp] theorem State.setEp_flmOld (s : State) (f : Func) (e : Ep0) : (s.setEp f e).flmOld = s.flmOld := rfl
@[simp] theorem State.setEp_pending (s : State) (f : Func) (e : Ep0) : (s.setEp f e).pending = s.pending := rfl

/-! ### State.modEp -/
@[simp] theorem State.modEp_hdrs (s : State) (f : Func) (g : Ep0 → Ep0) : (s.modEp f g).hdrs = s.hdrs := rfl
@[simp] theorem State.modEp_pins (s : State) (f : Func) (g : Ep0 → Ep0) : (s.modEp f g).pins = s.pins := rfl
@[simp] theorem State.modEp_rst (s : State) (f : Func) (g : Ep0 → Ep0) : (s.modEp f g).rst = s.rst := rfl
@[simp] theorem State.modEp_clk (s : State) (f : Func) (g : Ep0 → Ep0) : (s.modEp f g).clk = s.clk := rfl
@[simp] theorem State.modEp_opt (s : State) (f : Func) (g : Ep0 → Ep0) : (s.modEp f g).opt = s.opt := rfl
@[simp] theorem State.modEp_sys (s : State) (f : Func) (g : Ep0 → Ep0) : (s.modEp f g).sys = s.sys := rfl
@[simp] theorem State.modEp_dbg (s : State) (f : Func) (g : Ep0 → Ep0) : (s.modEp f g).dbg = s.dbg := rfl
@[simp] theorem State.modEp_bkp (s : State) (f : Func) (g : Ep0 → Ep0) : (s.modEp f g).bkp = s.bkp := rfl
@[simp] theorem State.modEp_upl (s : State) (f : Func) (g : Ep0 → Ep0) : (s.modEp f g).upl = s.upl := rfl
@[simp] theorem State.modEp_hub (s : State) (f : Func) (g : Ep0 → Ep0) : (s.modEp f g).hub = s.hub := rfl
@[simp] theorem State.modEp_beps (s : State) (f : Func) (g : Ep0 → Ep0) : (s.modEp f g).beps = s.beps := rfl
@[simp] theorem State.modEp_ttb (s : State) (f : Func) (g : Ep0 → Ep0) : (s.modEp f g).ttb = s.ttb := rfl
@[simp] theorem State.modEp_ports (s : State) (f : Func) (g : Ep0 → Ep0) : (s.modEp f g).ports = s.ports := rfl
@[simp] theorem State.modEp_lastRise (s : State) (f : Func) (g : Ep0 → Ep0) : (s.modEp f g).lastRise = s.lastRise := rfl
@[simp] theorem State.modEp_xlt (s : State) (f : Func) (g : Ep0 → Ep0) : (s.modEp f g).xlt = s.xlt := rfl
@[simp] theorem State.modEp_jx (s : State) (f : Func) (g : Ep0 → Ep0) : (s.modEp f g).jx = s.jx := rfl
@[simp] theorem State.modEp_mbr (s : State) (f : Func) (g : Ep0 → Ep0) : (s.modEp f g).mbr = s.mbr := rfl
@[simp] theorem State.modEp_mvf (s : State) (f : Func) (g : Ep0 → Ep0) : (s.modEp f g).mvf = s.mvf := rfl
@[simp] theorem State.modEp_pwr (s : State) (f : Func) (g : Ep0 → Ep0) : (s.modEp f g).pwr = s.pwr := rfl
@[simp] theorem State.modEp_aon (s : State) (f : Func) (g : Ep0 → Ep0) : (s.modEp f g).aon = s.aon := rfl
@[simp] theorem State.modEp_flt (s : State) (f : Func) (g : Ep0 → Ep0) : (s.modEp f g).flt = s.flt := rfl
@[simp] theorem State.modEp_mem (s : State) (f : Func) (g : Ep0 → Ep0) : (s.modEp f g).mem = s.mem := rfl
@[simp] theorem State.modEp_parBad (s : State) (f : Func) (g : Ep0 → Ep0) : (s.modEp f g).parBad = s.parBad := rfl
@[simp] theorem State.modEp_now (s : State) (f : Func) (g : Ep0 → Ep0) : (s.modEp f g).now = s.now := rfl
@[simp] theorem State.modEp_free (s : State) (f : Func) (g : Ep0 → Ep0) : (s.modEp f g).free = s.free := rfl
@[simp] theorem State.modEp_stamp (s : State) (f : Func) (g : Ep0 → Ep0) : (s.modEp f g).stamp = s.stamp := rfl
@[simp] theorem State.modEp_answer (s : State) (f : Func) (g : Ep0 → Ep0) : (s.modEp f g).answer = s.answer := rfl
@[simp] theorem State.modEp_sent (s : State) (f : Func) (g : Ep0 → Ep0) : (s.modEp f g).sent = s.sent := rfl
@[simp] theorem State.modEp_repUp (s : State) (f : Func) (g : Ep0 → Ep0) : (s.modEp f g).repUp = s.repUp := rfl
@[simp] theorem State.modEp_flmOld (s : State) (f : Func) (g : Ep0 → Ep0) : (s.modEp f g).flmOld = s.flmOld := rfl
@[simp] theorem State.modEp_pending (s : State) (f : Func) (g : Ep0 → Ep0) : (s.modEp f g).pending = s.pending := rfl

/-! ### State.setBep -/
@[simp] theorem State.setBep_hdrs (s : State) (k : Fin 12) (e : BEp) : (s.setBep k e).hdrs = s.hdrs := rfl
@[simp] theorem State.setBep_pins (s : State) (k : Fin 12) (e : BEp) : (s.setBep k e).pins = s.pins := rfl
@[simp] theorem State.setBep_rst (s : State) (k : Fin 12) (e : BEp) : (s.setBep k e).rst = s.rst := rfl
@[simp] theorem State.setBep_clk (s : State) (k : Fin 12) (e : BEp) : (s.setBep k e).clk = s.clk := rfl
@[simp] theorem State.setBep_opt (s : State) (k : Fin 12) (e : BEp) : (s.setBep k e).opt = s.opt := rfl
@[simp] theorem State.setBep_sys (s : State) (k : Fin 12) (e : BEp) : (s.setBep k e).sys = s.sys := rfl
@[simp] theorem State.setBep_dbg (s : State) (k : Fin 12) (e : BEp) : (s.setBep k e).dbg = s.dbg := rfl
@[simp] theorem State.setBep_bkp (s : State) (k : Fin 12) (e : BEp) : (s.setBep k e).bkp = s.bkp := rfl
@[simp] theorem State.setBep_upl (s : State) (k : Fin 12) (e : BEp) : (s.setBep k e).upl = s.upl := rfl
@[simp] theorem State.setBep_hub (s : State) (k : Fin 12) (e : BEp) : (s.setBep k e).hub = s.hub := rfl
@[simp] theorem State.setBep_ep0 (s : State) (k : Fin 12) (e : BEp) : (s.setBep k e).ep0 = s.ep0 := rfl
@[simp] theorem State.setBep_ttb (s : State) (k : Fin 12) (e : BEp) : (s.setBep k e).ttb = s.ttb := rfl
@[simp] theorem State.setBep_ports (s : State) (k : Fin 12) (e : BEp) : (s.setBep k e).ports = s.ports := rfl
@[simp] theorem State.setBep_lastRise (s : State) (k : Fin 12) (e : BEp) : (s.setBep k e).lastRise = s.lastRise := rfl
@[simp] theorem State.setBep_xlt (s : State) (k : Fin 12) (e : BEp) : (s.setBep k e).xlt = s.xlt := rfl
@[simp] theorem State.setBep_jx (s : State) (k : Fin 12) (e : BEp) : (s.setBep k e).jx = s.jx := rfl
@[simp] theorem State.setBep_mbr (s : State) (k : Fin 12) (e : BEp) : (s.setBep k e).mbr = s.mbr := rfl
@[simp] theorem State.setBep_mvf (s : State) (k : Fin 12) (e : BEp) : (s.setBep k e).mvf = s.mvf := rfl
@[simp] theorem State.setBep_pwr (s : State) (k : Fin 12) (e : BEp) : (s.setBep k e).pwr = s.pwr := rfl
@[simp] theorem State.setBep_aon (s : State) (k : Fin 12) (e : BEp) : (s.setBep k e).aon = s.aon := rfl
@[simp] theorem State.setBep_flt (s : State) (k : Fin 12) (e : BEp) : (s.setBep k e).flt = s.flt := rfl
@[simp] theorem State.setBep_mem (s : State) (k : Fin 12) (e : BEp) : (s.setBep k e).mem = s.mem := rfl
@[simp] theorem State.setBep_parBad (s : State) (k : Fin 12) (e : BEp) : (s.setBep k e).parBad = s.parBad := rfl
@[simp] theorem State.setBep_now (s : State) (k : Fin 12) (e : BEp) : (s.setBep k e).now = s.now := rfl
@[simp] theorem State.setBep_free (s : State) (k : Fin 12) (e : BEp) : (s.setBep k e).free = s.free := rfl
@[simp] theorem State.setBep_stamp (s : State) (k : Fin 12) (e : BEp) : (s.setBep k e).stamp = s.stamp := rfl
@[simp] theorem State.setBep_answer (s : State) (k : Fin 12) (e : BEp) : (s.setBep k e).answer = s.answer := rfl
@[simp] theorem State.setBep_sent (s : State) (k : Fin 12) (e : BEp) : (s.setBep k e).sent = s.sent := rfl
@[simp] theorem State.setBep_repUp (s : State) (k : Fin 12) (e : BEp) : (s.setBep k e).repUp = s.repUp := rfl
@[simp] theorem State.setBep_flmOld (s : State) (k : Fin 12) (e : BEp) : (s.setBep k e).flmOld = s.flmOld := rfl
@[simp] theorem State.setBep_pending (s : State) (k : Fin 12) (e : BEp) : (s.setBep k e).pending = s.pending := rfl

/-! ### State.modBep -/
@[simp] theorem State.modBep_hdrs (s : State) (k : Fin 12) (f : BEp → BEp) : (s.modBep k f).hdrs = s.hdrs := rfl
@[simp] theorem State.modBep_pins (s : State) (k : Fin 12) (f : BEp → BEp) : (s.modBep k f).pins = s.pins := rfl
@[simp] theorem State.modBep_rst (s : State) (k : Fin 12) (f : BEp → BEp) : (s.modBep k f).rst = s.rst := rfl
@[simp] theorem State.modBep_clk (s : State) (k : Fin 12) (f : BEp → BEp) : (s.modBep k f).clk = s.clk := rfl
@[simp] theorem State.modBep_opt (s : State) (k : Fin 12) (f : BEp → BEp) : (s.modBep k f).opt = s.opt := rfl
@[simp] theorem State.modBep_sys (s : State) (k : Fin 12) (f : BEp → BEp) : (s.modBep k f).sys = s.sys := rfl
@[simp] theorem State.modBep_dbg (s : State) (k : Fin 12) (f : BEp → BEp) : (s.modBep k f).dbg = s.dbg := rfl
@[simp] theorem State.modBep_bkp (s : State) (k : Fin 12) (f : BEp → BEp) : (s.modBep k f).bkp = s.bkp := rfl
@[simp] theorem State.modBep_upl (s : State) (k : Fin 12) (f : BEp → BEp) : (s.modBep k f).upl = s.upl := rfl
@[simp] theorem State.modBep_hub (s : State) (k : Fin 12) (f : BEp → BEp) : (s.modBep k f).hub = s.hub := rfl
@[simp] theorem State.modBep_ep0 (s : State) (k : Fin 12) (f : BEp → BEp) : (s.modBep k f).ep0 = s.ep0 := rfl
@[simp] theorem State.modBep_ttb (s : State) (k : Fin 12) (f : BEp → BEp) : (s.modBep k f).ttb = s.ttb := rfl
@[simp] theorem State.modBep_ports (s : State) (k : Fin 12) (f : BEp → BEp) : (s.modBep k f).ports = s.ports := rfl
@[simp] theorem State.modBep_lastRise (s : State) (k : Fin 12) (f : BEp → BEp) : (s.modBep k f).lastRise = s.lastRise := rfl
@[simp] theorem State.modBep_xlt (s : State) (k : Fin 12) (f : BEp → BEp) : (s.modBep k f).xlt = s.xlt := rfl
@[simp] theorem State.modBep_jx (s : State) (k : Fin 12) (f : BEp → BEp) : (s.modBep k f).jx = s.jx := rfl
@[simp] theorem State.modBep_mbr (s : State) (k : Fin 12) (f : BEp → BEp) : (s.modBep k f).mbr = s.mbr := rfl
@[simp] theorem State.modBep_mvf (s : State) (k : Fin 12) (f : BEp → BEp) : (s.modBep k f).mvf = s.mvf := rfl
@[simp] theorem State.modBep_pwr (s : State) (k : Fin 12) (f : BEp → BEp) : (s.modBep k f).pwr = s.pwr := rfl
@[simp] theorem State.modBep_aon (s : State) (k : Fin 12) (f : BEp → BEp) : (s.modBep k f).aon = s.aon := rfl
@[simp] theorem State.modBep_flt (s : State) (k : Fin 12) (f : BEp → BEp) : (s.modBep k f).flt = s.flt := rfl
@[simp] theorem State.modBep_mem (s : State) (k : Fin 12) (f : BEp → BEp) : (s.modBep k f).mem = s.mem := rfl
@[simp] theorem State.modBep_parBad (s : State) (k : Fin 12) (f : BEp → BEp) : (s.modBep k f).parBad = s.parBad := rfl
@[simp] theorem State.modBep_now (s : State) (k : Fin 12) (f : BEp → BEp) : (s.modBep k f).now = s.now := rfl
@[simp] theorem State.modBep_free (s : State) (k : Fin 12) (f : BEp → BEp) : (s.modBep k f).free = s.free := rfl
@[simp] theorem State.modBep_stamp (s : State) (k : Fin 12) (f : BEp → BEp) : (s.modBep k f).stamp = s.stamp := rfl
@[simp] theorem State.modBep_answer (s : State) (k : Fin 12) (f : BEp → BEp) : (s.modBep k f).answer = s.answer := rfl
@[simp] theorem State.modBep_sent (s : State) (k : Fin 12) (f : BEp → BEp) : (s.modBep k f).sent = s.sent := rfl
@[simp] theorem State.modBep_repUp (s : State) (k : Fin 12) (f : BEp → BEp) : (s.modBep k f).repUp = s.repUp := rfl
@[simp] theorem State.modBep_flmOld (s : State) (k : Fin 12) (f : BEp → BEp) : (s.modBep k f).flmOld = s.flmOld := rfl
@[simp] theorem State.modBep_pending (s : State) (k : Fin 12) (f : BEp → BEp) : (s.modBep k f).pending = s.pending := rfl

/-! ### evt -/
@[simp] theorem evt_pins (s : State) (b : Blk) (i : Nat) : (evt s b i).pins = s.pins := rfl
@[simp] theorem evt_rst (s : State) (b : Blk) (i : Nat) : (evt s b i).rst = s.rst := rfl
@[simp] theorem evt_clk (s : State) (b : Blk) (i : Nat) : (evt s b i).clk = s.clk := rfl
@[simp] theorem evt_opt (s : State) (b : Blk) (i : Nat) : (evt s b i).opt = s.opt := rfl
@[simp] theorem evt_sys (s : State) (b : Blk) (i : Nat) : (evt s b i).sys = s.sys := rfl
@[simp] theorem evt_dbg (s : State) (b : Blk) (i : Nat) : (evt s b i).dbg = s.dbg := rfl
@[simp] theorem evt_bkp (s : State) (b : Blk) (i : Nat) : (evt s b i).bkp = s.bkp := rfl
@[simp] theorem evt_upl (s : State) (b : Blk) (i : Nat) : (evt s b i).upl = s.upl := rfl
@[simp] theorem evt_hub (s : State) (b : Blk) (i : Nat) : (evt s b i).hub = s.hub := rfl
@[simp] theorem evt_ep0 (s : State) (b : Blk) (i : Nat) : (evt s b i).ep0 = s.ep0 := rfl
@[simp] theorem evt_beps (s : State) (b : Blk) (i : Nat) : (evt s b i).beps = s.beps := rfl
@[simp] theorem evt_ttb (s : State) (b : Blk) (i : Nat) : (evt s b i).ttb = s.ttb := rfl
@[simp] theorem evt_ports (s : State) (b : Blk) (i : Nat) : (evt s b i).ports = s.ports := rfl
@[simp] theorem evt_lastRise (s : State) (b : Blk) (i : Nat) : (evt s b i).lastRise = s.lastRise := rfl
@[simp] theorem evt_xlt (s : State) (b : Blk) (i : Nat) : (evt s b i).xlt = s.xlt := rfl
@[simp] theorem evt_jx (s : State) (b : Blk) (i : Nat) : (evt s b i).jx = s.jx := rfl
@[simp] theorem evt_mbr (s : State) (b : Blk) (i : Nat) : (evt s b i).mbr = s.mbr := rfl
@[simp] theorem evt_mvf (s : State) (b : Blk) (i : Nat) : (evt s b i).mvf = s.mvf := rfl
@[simp] theorem evt_pwr (s : State) (b : Blk) (i : Nat) : (evt s b i).pwr = s.pwr := rfl
@[simp] theorem evt_aon (s : State) (b : Blk) (i : Nat) : (evt s b i).aon = s.aon := rfl
@[simp] theorem evt_flt (s : State) (b : Blk) (i : Nat) : (evt s b i).flt = s.flt := rfl
@[simp] theorem evt_mem (s : State) (b : Blk) (i : Nat) : (evt s b i).mem = s.mem := rfl
@[simp] theorem evt_parBad (s : State) (b : Blk) (i : Nat) : (evt s b i).parBad = s.parBad := rfl
@[simp] theorem evt_now (s : State) (b : Blk) (i : Nat) : (evt s b i).now = s.now := rfl
@[simp] theorem evt_free (s : State) (b : Blk) (i : Nat) : (evt s b i).free = s.free := rfl
@[simp] theorem evt_stamp (s : State) (b : Blk) (i : Nat) : (evt s b i).stamp = s.stamp := rfl
@[simp] theorem evt_answer (s : State) (b : Blk) (i : Nat) : (evt s b i).answer = s.answer := rfl
@[simp] theorem evt_sent (s : State) (b : Blk) (i : Nat) : (evt s b i).sent = s.sent := rfl
@[simp] theorem evt_repUp (s : State) (b : Blk) (i : Nat) : (evt s b i).repUp = s.repUp := rfl
@[simp] theorem evt_flmOld (s : State) (b : Blk) (i : Nat) : (evt s b i).flmOld = s.flmOld := rfl
@[simp] theorem evt_pending (s : State) (b : Blk) (i : Nat) : (evt s b i).pending = s.pending := rfl

/-! ### raise -/
@[simp] theorem raise_pins (s : State) (b : Blk) (i : Nat) : (raise s b i).pins = s.pins := rfl
@[simp] theorem raise_rst (s : State) (b : Blk) (i : Nat) : (raise s b i).rst = s.rst := rfl
@[simp] theorem raise_clk (s : State) (b : Blk) (i : Nat) : (raise s b i).clk = s.clk := rfl
@[simp] theorem raise_opt (s : State) (b : Blk) (i : Nat) : (raise s b i).opt = s.opt := rfl
@[simp] theorem raise_sys (s : State) (b : Blk) (i : Nat) : (raise s b i).sys = s.sys := rfl
@[simp] theorem raise_dbg (s : State) (b : Blk) (i : Nat) : (raise s b i).dbg = s.dbg := rfl
@[simp] theorem raise_bkp (s : State) (b : Blk) (i : Nat) : (raise s b i).bkp = s.bkp := rfl
@[simp] theorem raise_upl (s : State) (b : Blk) (i : Nat) : (raise s b i).upl = s.upl := rfl
@[simp] theorem raise_hub (s : State) (b : Blk) (i : Nat) : (raise s b i).hub = s.hub := rfl
@[simp] theorem raise_ep0 (s : State) (b : Blk) (i : Nat) : (raise s b i).ep0 = s.ep0 := rfl
@[simp] theorem raise_beps (s : State) (b : Blk) (i : Nat) : (raise s b i).beps = s.beps := rfl
@[simp] theorem raise_ttb (s : State) (b : Blk) (i : Nat) : (raise s b i).ttb = s.ttb := rfl
@[simp] theorem raise_ports (s : State) (b : Blk) (i : Nat) : (raise s b i).ports = s.ports := rfl
@[simp] theorem raise_lastRise (s : State) (b : Blk) (i : Nat) : (raise s b i).lastRise = s.lastRise := rfl
@[simp] theorem raise_xlt (s : State) (b : Blk) (i : Nat) : (raise s b i).xlt = s.xlt := rfl
@[simp] theorem raise_jx (s : State) (b : Blk) (i : Nat) : (raise s b i).jx = s.jx := rfl
@[simp] theorem raise_mbr (s : State) (b : Blk) (i : Nat) : (raise s b i).mbr = s.mbr := rfl
@[simp] theorem raise_mvf (s : State) (b : Blk) (i : Nat) : (raise s b i).mvf = s.mvf := rfl
@[simp] theorem raise_pwr (s : State) (b : Blk) (i : Nat) : (raise s b i).pwr = s.pwr := rfl
@[simp] theorem raise_aon (s : State) (b : Blk) (i : Nat) : (raise s b i).aon = s.aon := rfl
@[simp] theorem raise_flt (s : State) (b : Blk) (i : Nat) : (raise s b i).flt = s.flt := rfl
@[simp] theorem raise_mem (s : State) (b : Blk) (i : Nat) : (raise s b i).mem = s.mem := rfl
@[simp] theorem raise_parBad (s : State) (b : Blk) (i : Nat) : (raise s b i).parBad = s.parBad := rfl
@[simp] theorem raise_now (s : State) (b : Blk) (i : Nat) : (raise s b i).now = s.now := rfl
@[simp] theorem raise_free (s : State) (b : Blk) (i : Nat) : (raise s b i).free = s.free := rfl
@[simp] theorem raise_stamp (s : State) (b : Blk) (i : Nat) : (raise s b i).stamp = s.stamp := rfl
@[simp] theorem raise_answer (s : State) (b : Blk) (i : Nat) : (raise s b i).answer = s.answer := rfl
@[simp] theorem raise_sent (s : State) (b : Blk) (i : Nat) : (raise s b i).sent = s.sent := rfl
@[simp] theorem raise_repUp (s : State) (b : Blk) (i : Nat) : (raise s b i).repUp = s.repUp := rfl
@[simp] theorem raise_flmOld (s : State) (b : Blk) (i : Nat) : (raise s b i).flmOld = s.flmOld := rfl
@[simp] theorem raise_pending (s : State) (b : Blk) (i : Nat) : (raise s b i).pending = s.pending := rfl

/-! ### nextFree -/
@[simp] theorem nextFree_hdrs (s : State) : (nextFree s).hdrs = s.hdrs := rfl
@[simp] theorem nextFree_pins (s : State) : (nextFree s).pins = s.pins := rfl
@[simp] theorem nextFree_rst (s : State) : (nextFree s).rst = s.rst := rfl
@[simp] theorem nextFree_clk (s : State) : (nextFree s).clk = s.clk := rfl
@[simp] theorem nextFree_opt (s : State) : (nextFree s).opt = s.opt := rfl
@[simp] theorem nextFree_sys (s : State) : (nextFree s).sys = s.sys := rfl
@[simp] theorem nextFree_dbg (s : State) : (nextFree s).dbg = s.dbg := rfl
@[simp] theorem nextFree_bkp (s : State) : (nextFree s).bkp = s.bkp := rfl
@[simp] theorem nextFree_upl (s : State) : (nextFree s).upl = s.upl := rfl
@[simp] theorem nextFree_hub (s : State) : (nextFree s).hub = s.hub := rfl
@[simp] theorem nextFree_ep0 (s : State) : (nextFree s).ep0 = s.ep0 := rfl
@[simp] theorem nextFree_beps (s : State) : (nextFree s).beps = s.beps := rfl
@[simp] theorem nextFree_ttb (s : State) : (nextFree s).ttb = s.ttb := rfl
@[simp] theorem nextFree_ports (s : State) : (nextFree s).ports = s.ports := rfl
@[simp] theorem nextFree_lastRise (s : State) : (nextFree s).lastRise = s.lastRise := rfl
@[simp] theorem nextFree_xlt (s : State) : (nextFree s).xlt = s.xlt := rfl
@[simp] theorem nextFree_jx (s : State) : (nextFree s).jx = s.jx := rfl
@[simp] theorem nextFree_mbr (s : State) : (nextFree s).mbr = s.mbr := rfl
@[simp] theorem nextFree_mvf (s : State) : (nextFree s).mvf = s.mvf := rfl
@[simp] theorem nextFree_pwr (s : State) : (nextFree s).pwr = s.pwr := rfl
@[simp] theorem nextFree_aon (s : State) : (nextFree s).aon = s.aon := rfl
@[simp] theorem nextFree_flt (s : State) : (nextFree s).flt = s.flt := rfl
@[simp] theorem nextFree_mem (s : State) : (nextFree s).mem = s.mem := rfl
@[simp] theorem nextFree_parBad (s : State) : (nextFree s).parBad = s.parBad := rfl
@[simp] theorem nextFree_now (s : State) : (nextFree s).now = s.now := rfl
@[simp] theorem nextFree_stamp (s : State) : (nextFree s).stamp = s.stamp := rfl
@[simp] theorem nextFree_answer (s : State) : (nextFree s).answer = s.answer := rfl
@[simp] theorem nextFree_sent (s : State) : (nextFree s).sent = s.sent := rfl
@[simp] theorem nextFree_repUp (s : State) : (nextFree s).repUp = s.repUp := rfl
@[simp] theorem nextFree_flmOld (s : State) : (nextFree s).flmOld = s.flmOld := rfl
@[simp] theorem nextFree_pending (s : State) : (nextFree s).pending = s.pending := rfl

/-! ### nextStamp -/
@[simp] theorem nextStamp_hdrs (s : State) : (nextStamp s).hdrs = s.hdrs := rfl
@[simp] theorem nextStamp_pins (s : State) : (nextStamp s).pins = s.pins := rfl
@[simp] theorem nextStamp_rst (s : State) : (nextStamp s).rst = s.rst := rfl
@[simp] theorem nextStamp_clk (s : State) : (nextStamp s).clk = s.clk := rfl
@[simp] theorem nextStamp_opt (s : State) : (nextStamp s).opt = s.opt := rfl
@[simp] theorem nextStamp_sys (s : State) : (nextStamp s).sys = s.sys := rfl
@[simp] theorem nextStamp_dbg (s : State) : (nextStamp s).dbg = s.dbg := rfl
@[simp] theorem nextStamp_bkp (s : State) : (nextStamp s).bkp = s.bkp := rfl
@[simp] theorem nextStamp_upl (s : State) : (nextStamp s).upl = s.upl := rfl
@[simp] theorem nextStamp_hub (s : State) : (nextStamp s).hub = s.hub := rfl
@[simp] theorem nextStamp_ep0 (s : State) : (nextStamp s).ep0 = s.ep0 := rfl
@[simp] theorem nextStamp_beps (s : State) : (nextStamp s).beps = s.beps := rfl
@[simp] theorem nextStamp_ttb (s : State) : (nextStamp s).ttb = s.ttb := rfl
@[simp] theorem nextStamp_ports (s : State) : (nextStamp s).ports = s.ports := rfl
@[simp] theorem nextStamp_lastRise (s : State) : (nextStamp s).lastRise = s.lastRise := rfl
@[simp] theorem nextStamp_xlt (s : State) : (nextStamp s).xlt = s.xlt := rfl
@[simp] theorem nextStamp_jx (s : State) : (nextStamp s).jx = s.jx := rfl
@[simp] theorem nextStamp_mbr (s : State) : (nextStamp s).mbr = s.mbr := rfl
@[simp] theorem nextStamp_mvf (s : State) : (nextStamp s).mvf = s.mvf := rfl
@[simp] theorem nextStamp_pwr (s : State) : (nextStamp s).pwr = s.pwr := rfl
@[simp] theorem nextStamp_aon (s : State) : (nextStamp s).aon = s.aon := rfl
@[simp] theorem nextStamp_flt (s : State) : (nextStamp s).flt = s.flt := rfl
@[simp] theorem nextStamp_mem (s : State) : (nextStamp s).mem = s.mem := rfl
@[simp] theorem nextStamp_parBad (s : State) : (nextStamp s).parBad = s.parBad := rfl
@[simp] theorem nextStamp_now (s : State) : (nextStamp s).now = s.now := rfl
@[simp] theorem nextStamp_free (s : State) : (nextStamp s).free = s.free := rfl
@[simp] theorem nextStamp_answer (s : State) : (nextStamp s).answer = s.answer := rfl
@[simp] theorem nextStamp_sent (s : State) : (nextStamp s).sent = s.sent := rfl
@[simp] theorem nextStamp_repUp (s : State) : (nextStamp s).repUp = s.repUp := rfl
@[simp] theorem nextStamp_flmOld (s : State) : (nextStamp s).flmOld = s.flmOld := rfl
@[simp] theorem nextStamp_pending (s : State) : (nextStamp s).pending = s.pending := rfl

/-! ### sramUnc -/
@[simp] theorem sramUnc_hdrs (s : State) : (sramUnc s).hdrs = s.hdrs := rfl
@[simp] theorem sramUnc_pins (s : State) : (sramUnc s).pins = s.pins := rfl
@[simp] theorem sramUnc_rst (s : State) : (sramUnc s).rst = s.rst := rfl
@[simp] theorem sramUnc_clk (s : State) : (sramUnc s).clk = s.clk := rfl
@[simp] theorem sramUnc_opt (s : State) : (sramUnc s).opt = s.opt := rfl
@[simp] theorem sramUnc_sys (s : State) : (sramUnc s).sys = s.sys := rfl
@[simp] theorem sramUnc_bkp (s : State) : (sramUnc s).bkp = s.bkp := rfl
@[simp] theorem sramUnc_upl (s : State) : (sramUnc s).upl = s.upl := rfl
@[simp] theorem sramUnc_hub (s : State) : (sramUnc s).hub = s.hub := rfl
@[simp] theorem sramUnc_ep0 (s : State) : (sramUnc s).ep0 = s.ep0 := rfl
@[simp] theorem sramUnc_beps (s : State) : (sramUnc s).beps = s.beps := rfl
@[simp] theorem sramUnc_ttb (s : State) : (sramUnc s).ttb = s.ttb := rfl
@[simp] theorem sramUnc_ports (s : State) : (sramUnc s).ports = s.ports := rfl
@[simp] theorem sramUnc_lastRise (s : State) : (sramUnc s).lastRise = s.lastRise := rfl
@[simp] theorem sramUnc_xlt (s : State) : (sramUnc s).xlt = s.xlt := rfl
@[simp] theorem sramUnc_jx (s : State) : (sramUnc s).jx = s.jx := rfl
@[simp] theorem sramUnc_mbr (s : State) : (sramUnc s).mbr = s.mbr := rfl
@[simp] theorem sramUnc_mvf (s : State) : (sramUnc s).mvf = s.mvf := rfl
@[simp] theorem sramUnc_pwr (s : State) : (sramUnc s).pwr = s.pwr := rfl
@[simp] theorem sramUnc_aon (s : State) : (sramUnc s).aon = s.aon := rfl
@[simp] theorem sramUnc_flt (s : State) : (sramUnc s).flt = s.flt := rfl
@[simp] theorem sramUnc_mem (s : State) : (sramUnc s).mem = s.mem := rfl
@[simp] theorem sramUnc_parBad (s : State) : (sramUnc s).parBad = s.parBad := rfl
@[simp] theorem sramUnc_now (s : State) : (sramUnc s).now = s.now := rfl
@[simp] theorem sramUnc_stamp (s : State) : (sramUnc s).stamp = s.stamp := rfl
@[simp] theorem sramUnc_answer (s : State) : (sramUnc s).answer = s.answer := rfl
@[simp] theorem sramUnc_sent (s : State) : (sramUnc s).sent = s.sent := rfl
@[simp] theorem sramUnc_repUp (s : State) : (sramUnc s).repUp = s.repUp := rfl
@[simp] theorem sramUnc_flmOld (s : State) : (sramUnc s).flmOld = s.flmOld := rfl
@[simp] theorem sramUnc_pending (s : State) : (sramUnc s).pending = s.pending := rfl

/-! ### memStore -/
@[simp] theorem memStore_hdrs (s : State) (a : Nat) (w : Word) : (memStore s a w).hdrs = s.hdrs := by
  unfold memStore noteFlm; split <;> rfl
@[simp] theorem memStore_pins (s : State) (a : Nat) (w : Word) : (memStore s a w).pins = s.pins := by
  unfold memStore noteFlm; split <;> rfl
@[simp] theorem memStore_rst (s : State) (a : Nat) (w : Word) : (memStore s a w).rst = s.rst := by
  unfold memStore noteFlm; split <;> rfl
@[simp] theorem memStore_clk (s : State) (a : Nat) (w : Word) : (memStore s a w).clk = s.clk := by
  unfold memStore noteFlm; split <;> rfl
@[simp] theorem memStore_opt (s : State) (a : Nat) (w : Word) : (memStore s a w).opt = s.opt := by
  unfold memStore noteFlm; split <;> rfl
@[simp] theorem memStore_sys (s : State) (a : Nat) (w : Word) : (memStore s a w).sys = s.sys := by
  unfold memStore noteFlm; split <;> rfl
@[simp] theorem memStore_dbg (s : State) (a : Nat) (w : Word) : (memStore s a w).dbg = s.dbg := by
  unfold memStore noteFlm; split <;> rfl
@[simp] theorem memStore_bkp (s : State) (a : Nat) (w : Word) : (memStore s a w).bkp = s.bkp := by
  unfold memStore noteFlm; split <;> rfl
@[simp] theorem memStore_upl (s : State) (a : Nat) (w : Word) : (memStore s a w).upl = s.upl := by
  unfold memStore noteFlm; split <;> rfl
@[simp] theorem memStore_hub (s : State) (a : Nat) (w : Word) : (memStore s a w).hub = s.hub := by
  unfold memStore noteFlm; split <;> rfl
@[simp] theorem memStore_ep0 (s : State) (a : Nat) (w : Word) : (memStore s a w).ep0 = s.ep0 := by
  unfold memStore noteFlm; split <;> rfl
@[simp] theorem memStore_beps (s : State) (a : Nat) (w : Word) : (memStore s a w).beps = s.beps := by
  unfold memStore noteFlm; split <;> rfl
@[simp] theorem memStore_ttb (s : State) (a : Nat) (w : Word) : (memStore s a w).ttb = s.ttb := by
  unfold memStore noteFlm; split <;> rfl
@[simp] theorem memStore_ports (s : State) (a : Nat) (w : Word) : (memStore s a w).ports = s.ports := by
  unfold memStore noteFlm; split <;> rfl
@[simp] theorem memStore_lastRise (s : State) (a : Nat) (w : Word) : (memStore s a w).lastRise = s.lastRise := by
  unfold memStore noteFlm; split <;> rfl
@[simp] theorem memStore_xlt (s : State) (a : Nat) (w : Word) : (memStore s a w).xlt = s.xlt := by
  unfold memStore noteFlm; split <;> rfl
@[simp] theorem memStore_jx (s : State) (a : Nat) (w : Word) : (memStore s a w).jx = s.jx := by
  unfold memStore noteFlm; split <;> rfl
@[simp] theorem memStore_mbr (s : State) (a : Nat) (w : Word) : (memStore s a w).mbr = s.mbr := by
  unfold memStore noteFlm; split <;> rfl
@[simp] theorem memStore_mvf (s : State) (a : Nat) (w : Word) : (memStore s a w).mvf = s.mvf := by
  unfold memStore noteFlm; split <;> rfl
@[simp] theorem memStore_pwr (s : State) (a : Nat) (w : Word) : (memStore s a w).pwr = s.pwr := by
  unfold memStore noteFlm; split <;> rfl
@[simp] theorem memStore_aon (s : State) (a : Nat) (w : Word) : (memStore s a w).aon = s.aon := by
  unfold memStore noteFlm; split <;> rfl
@[simp] theorem memStore_flt (s : State) (a : Nat) (w : Word) : (memStore s a w).flt = s.flt := by
  unfold memStore noteFlm; split <;> rfl
@[simp] theorem memStore_now (s : State) (a : Nat) (w : Word) : (memStore s a w).now = s.now := by
  unfold memStore noteFlm; split <;> rfl
@[simp] theorem memStore_free (s : State) (a : Nat) (w : Word) : (memStore s a w).free = s.free := by
  unfold memStore noteFlm; split <;> rfl
@[simp] theorem memStore_stamp (s : State) (a : Nat) (w : Word) : (memStore s a w).stamp = s.stamp := by
  unfold memStore noteFlm; split <;> rfl
@[simp] theorem memStore_answer (s : State) (a : Nat) (w : Word) : (memStore s a w).answer = s.answer := by
  unfold memStore noteFlm; split <;> rfl
@[simp] theorem memStore_sent (s : State) (a : Nat) (w : Word) : (memStore s a w).sent = s.sent := by
  unfold memStore noteFlm; split <;> rfl
@[simp] theorem memStore_repUp (s : State) (a : Nat) (w : Word) : (memStore s a w).repUp = s.repUp := by
  unfold memStore noteFlm; split <;> rfl
@[simp] theorem memStore_pending (s : State) (a : Nat) (w : Word) : (memStore s a w).pending = s.pending := by
  unfold memStore noteFlm; split <;> rfl

/-! ### reply -/
@[simp] theorem reply_hdrs (s : State) (t : RespType) (addr : BitVec 7) (ep : BitVec 4) (seq : Bool) (len : Nat) (p : List Byte) : (reply s t addr ep seq len p).hdrs = s.hdrs := rfl
@[simp] theorem reply_pins (s : State) (t : RespType) (addr : BitVec 7) (ep : BitVec 4) (seq : Bool) (len : Nat) (p : List Byte) : (reply s t addr ep seq len p).pins = s.pins := rfl
@[simp] theorem reply_rst (s : State) (t : RespType) (addr : BitVec 7) (ep : BitVec 4) (seq : Bool) (len : Nat) (p : List Byte) : (reply s t addr ep seq len p).rst = s.rst := rfl
@[simp] theorem reply_clk (s : State) (t : RespType) (addr : BitVec 7) (ep : BitVec 4) (seq : Bool) (len : Nat) (p : List Byte) : (reply s t addr ep seq len p).clk = s.clk := rfl
@[simp] theorem reply_opt (s : State) (t : RespType) (addr : BitVec 7) (ep : BitVec 4) (seq : Bool) (len : Nat) (p : List Byte) : (reply s t addr ep seq len p).opt = s.opt := rfl
@[simp] theorem reply_sys (s : State) (t : RespType) (addr : BitVec 7) (ep : BitVec 4) (seq : Bool) (len : Nat) (p : List Byte) : (reply s t addr ep seq len p).sys = s.sys := rfl
@[simp] theorem reply_dbg (s : State) (t : RespType) (addr : BitVec 7) (ep : BitVec 4) (seq : Bool) (len : Nat) (p : List Byte) : (reply s t addr ep seq len p).dbg = s.dbg := rfl
@[simp] theorem reply_bkp (s : State) (t : RespType) (addr : BitVec 7) (ep : BitVec 4) (seq : Bool) (len : Nat) (p : List Byte) : (reply s t addr ep seq len p).bkp = s.bkp := rfl
@[simp] theorem reply_upl (s : State) (t : RespType) (addr : BitVec 7) (ep : BitVec 4) (seq : Bool) (len : Nat) (p : List Byte) : (reply s t addr ep seq len p).upl = s.upl := rfl
@[simp] theorem reply_hub (s : State) (t : RespType) (addr : BitVec 7) (ep : BitVec 4) (seq : Bool) (len : Nat) (p : List Byte) : (reply s t addr ep seq len p).hub = s.hub := rfl
@[simp] theorem reply_ep0 (s : State) (t : RespType) (addr : BitVec 7) (ep : BitVec 4) (seq : Bool) (len : Nat) (p : List Byte) : (reply s t addr ep seq len p).ep0 = s.ep0 := rfl
@[simp] theorem reply_beps (s : State) (t : RespType) (addr : BitVec 7) (ep : BitVec 4) (seq : Bool) (len : Nat) (p : List Byte) : (reply s t addr ep seq len p).beps = s.beps := rfl
@[simp] theorem reply_ttb (s : State) (t : RespType) (addr : BitVec 7) (ep : BitVec 4) (seq : Bool) (len : Nat) (p : List Byte) : (reply s t addr ep seq len p).ttb = s.ttb := rfl
@[simp] theorem reply_ports (s : State) (t : RespType) (addr : BitVec 7) (ep : BitVec 4) (seq : Bool) (len : Nat) (p : List Byte) : (reply s t addr ep seq len p).ports = s.ports := rfl
@[simp] theorem reply_lastRise (s : State) (t : RespType) (addr : BitVec 7) (ep : BitVec 4) (seq : Bool) (len : Nat) (p : List Byte) : (reply s t addr ep seq len p).lastRise = s.lastRise := rfl
@[simp] theorem reply_xlt (s : State) (t : RespType) (addr : BitVec 7) (ep : BitVec 4) (seq : Bool) (len : Nat) (p : List Byte) : (reply s t addr ep seq len p).xlt = s.xlt := rfl
@[simp] theorem reply_jx (s : State) (t : RespType) (addr : BitVec 7) (ep : BitVec 4) (seq : Bool) (len : Nat) (p : List Byte) : (reply s t addr ep seq len p).jx = s.jx := rfl
@[simp] theorem reply_mbr (s : State) (t : RespType) (addr : BitVec 7) (ep : BitVec 4) (seq : Bool) (len : Nat) (p : List Byte) : (reply s t addr ep seq len p).mbr = s.mbr := rfl
@[simp] theorem reply_mvf (s : State) (t : RespType) (addr : BitVec 7) (ep : BitVec 4) (seq : Bool) (len : Nat) (p : List Byte) : (reply s t addr ep seq len p).mvf = s.mvf := rfl
@[simp] theorem reply_pwr (s : State) (t : RespType) (addr : BitVec 7) (ep : BitVec 4) (seq : Bool) (len : Nat) (p : List Byte) : (reply s t addr ep seq len p).pwr = s.pwr := rfl
@[simp] theorem reply_aon (s : State) (t : RespType) (addr : BitVec 7) (ep : BitVec 4) (seq : Bool) (len : Nat) (p : List Byte) : (reply s t addr ep seq len p).aon = s.aon := rfl
@[simp] theorem reply_flt (s : State) (t : RespType) (addr : BitVec 7) (ep : BitVec 4) (seq : Bool) (len : Nat) (p : List Byte) : (reply s t addr ep seq len p).flt = s.flt := rfl
@[simp] theorem reply_mem (s : State) (t : RespType) (addr : BitVec 7) (ep : BitVec 4) (seq : Bool) (len : Nat) (p : List Byte) : (reply s t addr ep seq len p).mem = s.mem := rfl
@[simp] theorem reply_parBad (s : State) (t : RespType) (addr : BitVec 7) (ep : BitVec 4) (seq : Bool) (len : Nat) (p : List Byte) : (reply s t addr ep seq len p).parBad = s.parBad := rfl
@[simp] theorem reply_now (s : State) (t : RespType) (addr : BitVec 7) (ep : BitVec 4) (seq : Bool) (len : Nat) (p : List Byte) : (reply s t addr ep seq len p).now = s.now := rfl
@[simp] theorem reply_free (s : State) (t : RespType) (addr : BitVec 7) (ep : BitVec 4) (seq : Bool) (len : Nat) (p : List Byte) : (reply s t addr ep seq len p).free = s.free := rfl
@[simp] theorem reply_stamp (s : State) (t : RespType) (addr : BitVec 7) (ep : BitVec 4) (seq : Bool) (len : Nat) (p : List Byte) : (reply s t addr ep seq len p).stamp = s.stamp := rfl
@[simp] theorem reply_sent (s : State) (t : RespType) (addr : BitVec 7) (ep : BitVec 4) (seq : Bool) (len : Nat) (p : List Byte) : (reply s t addr ep seq len p).sent = s.sent := rfl
@[simp] theorem reply_repUp (s : State) (t : RespType) (addr : BitVec 7) (ep : BitVec 4) (seq : Bool) (len : Nat) (p : List Byte) : (reply s t addr ep seq len p).repUp = s.repUp := rfl
@[simp] theorem reply_flmOld (s : State) (t : RespType) (addr : BitVec 7) (ep : BitVec 4) (seq : Bool) (len : Nat) (p : List Byte) : (reply s t addr ep seq len p).flmOld = s.flmOld := rfl
@[simp] theorem reply_pending (s : State) (t : RespType) (addr : BitVec 7) (ep : BitVec 4) (seq : Bool) (len : Nat) (p : List Byte) : (reply s t addr ep seq len p).pending = s.pending := rfl

/-! ### silent -/
@[simp] theorem silent_hdrs (s : State) : (silent s).hdrs = s.hdrs := rfl
@[simp] theorem silent_pins (s : State) : (silent s).pins = s.pins := rfl
@[simp] theorem silent_rst (s : State) : (silent s).rst = s.rst := rfl
@[simp] theorem silent_clk (s : State) : (silent s).clk = s.clk := rfl
@[simp] theorem silent_opt (s : State) : (silent s).opt = s.opt := rfl
@[simp] theorem silent_sys (s : State) : (silent s).sys = s.sys := rfl
@[simp] theorem silent_dbg (s : State) : (silent s).dbg = s.dbg := rfl
@[simp] theorem silent_bkp (s : State) : (silent s).bkp = s.bkp := rfl
@[simp] theorem silent_upl (s : State) : (silent s).upl = s.upl := rfl
@[simp] theorem silent_hub (s : State) : (silent s).hub = s.hub := rfl
@[simp] theorem silent_ep0 (s : State) : (silent s).ep0 = s.ep0 := rfl
@[simp] theorem silent_beps (s : State) : (silent s).beps = s.beps := rfl
@[simp] theorem silent_ttb (s : State) : (silent s).ttb = s.ttb := rfl
@[simp] theorem silent_ports (s : State) : (silent s).ports = s.ports := rfl
@[simp] theorem silent_lastRise (s : State) : (silent s).lastRise = s.lastRise := rfl
@[simp] theorem silent_xlt (s : State) : (silent s).xlt = s.xlt := rfl
@[simp] theorem silent_jx (s : State) : (silent s).jx = s.jx := rfl
@[simp] theorem silent_mbr (s : State) : (silent s).mbr = s.mbr := rfl
@[simp] theorem silent_mvf (s : State) : (silent s).mvf = s.mvf := rfl
@[simp] theorem silent_pwr (s : State) : (silent s).pwr = s.pwr := rfl
@[simp] theorem silent_aon (s : State) : (silent s).aon = s.aon := rfl
@[simp] theorem silent_flt (s : State) : (silent s).flt = s.flt := rfl
@[simp] theorem silent_mem (s : State) : (silent s).mem = s.mem := rfl
@[simp] theorem silent_parBad (s : State) : (silent s).parBad = s.parBad := rfl
@[simp] theorem silent_now (s : State) : (silent s).now = s.now := rfl
@[simp] theorem silent_free (s : State) : (silent s).free = s.free := rfl
@[simp] theorem silent_stamp (s : State) : (silent s).stamp = s.stamp := rfl
@[simp] theorem silent_sent (s : State) : (silent s).sent = s.sent := rfl
@[simp] theorem silent_repUp (s : State) : (silent s).repUp = s.repUp := rfl
@[simp] theorem silent_flmOld (s : State) : (silent s).flmOld = s.flmOld := rfl
@[simp] theorem silent_pending (s : State) : (silent s).pending = s.pending := rfl

/-! ### Indexed reads of the other parts -/

@[simp] theorem State.setHdr_port (s : State) (b : Blk) (h : Hdr) (n' : Port) : (s.setHdr b h).port n' = s.port n' := rfl
@[simp] theorem State.setHdr_xport (s : State) (b : Blk) (h : Hdr) (n' : Port) : (s.setHdr b h).xport n' = s.xport n' := rfl
@[simp] theorem State.setHdr_chan (s : State) (b : Blk) (h : Hdr) (c' : Chan) : (s.setHdr b h).chan c' = s.chan c' := rfl
@[simp] theorem State.setHdr_inst (s : State) (b : Blk) (h : Hdr) (i' : Inst) : (s.setHdr b h).inst i' = s.inst i' := rfl
@[simp] theorem State.setHdr_ep (s : State) (b : Blk) (h : Hdr) (f' : Func) : (s.setHdr b h).ep f' = s.ep f' := rfl
@[simp] theorem State.setHdr_bep (s : State) (b : Blk) (h : Hdr) (k' : Fin 12) : (s.setHdr b h).bep k' = s.bep k' := rfl
@[simp] theorem State.modHdr_port (s : State) (b : Blk) (f : Hdr → Hdr) (n' : Port) : (s.modHdr b f).port n' = s.port n' := rfl
@[simp] theorem State.modHdr_xport (s : State) (b : Blk) (f : Hdr → Hdr) (n' : Port) : (s.modHdr b f).xport n' = s.xport n' := rfl
@[simp] theorem State.modHdr_chan (s : State) (b : Blk) (f : Hdr → Hdr) (c' : Chan) : (s.modHdr b f).chan c' = s.chan c' := rfl
@[simp] theorem State.modHdr_inst (s : State) (b : Blk) (f : Hdr → Hdr) (i' : Inst) : (s.modHdr b f).inst i' = s.inst i' := rfl
@[simp] theorem State.modHdr_ep (s : State) (b : Blk) (f : Hdr → Hdr) (f' : Func) : (s.modHdr b f).ep f' = s.ep f' := rfl
@[simp] theorem State.modHdr_bep (s : State) (b : Blk) (f : Hdr → Hdr) (k' : Fin 12) : (s.modHdr b f).bep k' = s.bep k' := rfl
@[simp] theorem State.setPort_hdr (s : State) (n : Port) (p : PortSt) (b' : Blk) : (s.setPort n p).hdr b' = s.hdr b' := rfl
@[simp] theorem State.setPort_xport (s : State) (n : Port) (p : PortSt) (n' : Port) : (s.setPort n p).xport n' = s.xport n' := rfl
@[simp] theorem State.setPort_chan (s : State) (n : Port) (p : PortSt) (c' : Chan) : (s.setPort n p).chan c' = s.chan c' := rfl
@[simp] theorem State.setPort_inst (s : State) (n : Port) (p : PortSt) (i' : Inst) : (s.setPort n p).inst i' = s.inst i' := rfl
@[simp] theorem State.setPort_ep (s : State) (n : Port) (p : PortSt) (f' : Func) : (s.setPort n p).ep f' = s.ep f' := rfl
@[simp] theorem State.setPort_bep (s : State) (n : Port) (p : PortSt) (k' : Fin 12) : (s.setPort n p).bep k' = s.bep k' := rfl
@[simp] theorem State.modPort_hdr (s : State) (n : Port) (f : PortSt → PortSt) (b' : Blk) : (s.modPort n f).hdr b' = s.hdr b' := rfl
@[simp] theorem State.modPort_xport (s : State) (n : Port) (f : PortSt → PortSt) (n' : Port) : (s.modPort n f).xport n' = s.xport n' := rfl
@[simp] theorem State.modPort_chan (s : State) (n : Port) (f : PortSt → PortSt) (c' : Chan) : (s.modPort n f).chan c' = s.chan c' := rfl
@[simp] theorem State.modPort_inst (s : State) (n : Port) (f : PortSt → PortSt) (i' : Inst) : (s.modPort n f).inst i' = s.inst i' := rfl
@[simp] theorem State.modPort_ep (s : State) (n : Port) (f : PortSt → PortSt) (f' : Func) : (s.modPort n f).ep f' = s.ep f' := rfl
@[simp] theorem State.modPort_bep (s : State) (n : Port) (f : PortSt → PortSt) (k' : Fin 12) : (s.modPort n f).bep k' = s.bep k' := rfl
@[simp] theorem State.setXport_hdr (s : State) (n : Port) (p : XPort) (b' : Blk) : (s.setXport n p).hdr b' = s.hdr b' := rfl
@[simp] theorem State.setXport_port (s : State) (n : Port) (p : XPort) (n' : Port) : (s.setXport n p).port n' = s.port n' := rfl
@[simp] theorem State.setXport_chan (s : State) (n : Port) (p : XPort) (c' : Chan) : (s.setXport n p).chan c' = s.chan c' := rfl
@[simp] theorem State.setXport_inst (s : State) (n : Port) (p : XPort) (i' : Inst) : (s.setXport n p).inst i' = s.inst i' := rfl
@[simp] theorem State.setXport_ep (s : State) (n : Port) (p : XPort) (f' : Func) : (s.setXport n p).ep f' = s.ep f' := rfl
@[simp] theorem State.setXport_bep (s : State) (n : Port) (p : XPort) (k' : Fin 12) : (s.setXport n p).bep k' = s.bep k' := rfl
@[simp] theorem State.modXport_hdr (s : State) (n : Port) (f : XPort → XPort) (b' : Blk) : (s.modXport n f).hdr b' = s.hdr b' := rfl
@[simp] theorem State.modXport_port (s : State) (n : Port) (f : XPort → XPort) (n' : Port) : (s.modXport n f).port n' = s.port n' := rfl
@[simp] theorem State.modXport_chan (s : State) (n : Port) (f : XPort → XPort) (c' : Chan) : (s.modXport n f).chan c' = s.chan c' := rfl
@[simp] theorem State.modXport_inst (s : State) (n : Port) (f : XPort → XPort) (i' : Inst) : (s.modXport n f).inst i' = s.inst i' := rfl
@[simp] theorem State.modXport_ep (s : State) (n : Port) (f : XPort → XPort) (f' : Func) : (s.modXport n f).ep f' = s.ep f' := rfl
@[simp] theorem State.modXport_bep (s : State) (n : Port) (f : XPort → XPort) (k' : Fin 12) : (s.modXport n f).bep k' = s.bep k' := rfl
@[simp] theorem State.setChan_hdr (s : State) (c : Chan) (j : Jx) (b' : Blk) : (s.setChan c j).hdr b' = s.hdr b' := rfl
@[simp] theorem State.setChan_port (s : State) (c : Chan) (j : Jx) (n' : Port) : (s.setChan c j).port n' = s.port n' := rfl
@[simp] theorem State.setChan_xport (s : State) (c : Chan) (j : Jx) (n' : Port) : (s.setChan c j).xport n' = s.xport n' := rfl
@[simp] theorem State.setChan_inst (s : State) (c : Chan) (j : Jx) (i' : Inst) : (s.setChan c j).inst i' = s.inst i' := rfl
@[simp] theorem State.setChan_ep (s : State) (c : Chan) (j : Jx) (f' : Func) : (s.setChan c j).ep f' = s.ep f' := rfl
@[simp] theorem State.setChan_bep (s : State) (c : Chan) (j : Jx) (k' : Fin 12) : (s.setChan c j).bep k' = s.bep k' := rfl
@[simp] theorem State.modChan_hdr (s : State) (c : Chan) (f : Jx → Jx) (b' : Blk) : (s.modChan c f).hdr b' = s.hdr b' := rfl
@[simp] theorem State.modChan_port (s : State) (c : Chan) (f : Jx → Jx) (n' : Port) : (s.modChan c f).port n' = s.port n' := rfl
@[simp] theorem State.modChan_xport (s : State) (c : Chan) (f : Jx → Jx) (n' : Port) : (s.modChan c f).xport n' = s.xport n' := rfl
@[simp] theorem State.modChan_inst (s : State) (c : Chan) (f : Jx → Jx) (i' : Inst) : (s.modChan c f).inst i' = s.inst i' := rfl
@[simp] theorem State.modChan_ep (s : State) (c : Chan) (f : Jx → Jx) (f' : Func) : (s.modChan c f).ep f' = s.ep f' := rfl
@[simp] theorem State.modChan_bep (s : State) (c : Chan) (f : Jx → Jx) (k' : Fin 12) : (s.modChan c f).bep k' = s.bep k' := rfl
@[simp] theorem State.setInst_hdr (s : State) (i : Inst) (m : Mvf) (b' : Blk) : (s.setInst i m).hdr b' = s.hdr b' := rfl
@[simp] theorem State.setInst_port (s : State) (i : Inst) (m : Mvf) (n' : Port) : (s.setInst i m).port n' = s.port n' := rfl
@[simp] theorem State.setInst_xport (s : State) (i : Inst) (m : Mvf) (n' : Port) : (s.setInst i m).xport n' = s.xport n' := rfl
@[simp] theorem State.setInst_chan (s : State) (i : Inst) (m : Mvf) (c' : Chan) : (s.setInst i m).chan c' = s.chan c' := rfl
@[simp] theorem State.setInst_ep (s : State) (i : Inst) (m : Mvf) (f' : Func) : (s.setInst i m).ep f' = s.ep f' := rfl
@[simp] theorem State.setInst_bep (s : State) (i : Inst) (m : Mvf) (k' : Fin 12) : (s.setInst i m).bep k' = s.bep k' := rfl
@[simp] theorem State.modInst_hdr (s : State) (i : Inst) (f : Mvf → Mvf) (b' : Blk) : (s.modInst i f).hdr b' = s.hdr b' := rfl
@[simp] theorem State.modInst_port (s : State) (i : Inst) (f : Mvf → Mvf) (n' : Port) : (s.modInst i f).port n' = s.port n' := rfl
@[simp] theorem State.modInst_xport (s : State) (i : Inst) (f : Mvf → Mvf) (n' : Port) : (s.modInst i f).xport n' = s.xport n' := rfl
@[simp] theorem State.modInst_chan (s : State) (i : Inst) (f : Mvf → Mvf) (c' : Chan) : (s.modInst i f).chan c' = s.chan c' := rfl
@[simp] theorem State.modInst_ep (s : State) (i : Inst) (f : Mvf → Mvf) (f' : Func) : (s.modInst i f).ep f' = s.ep f' := rfl
@[simp] theorem State.modInst_bep (s : State) (i : Inst) (f : Mvf → Mvf) (k' : Fin 12) : (s.modInst i f).bep k' = s.bep k' := rfl
@[simp] theorem State.setEp_hdr (s : State) (f : Func) (e : Ep0) (b' : Blk) : (s.setEp f e).hdr b' = s.hdr b' := rfl
@[simp] theorem State.setEp_port (s : State) (f : Func) (e : Ep0) (n' : Port) : (s.setEp f e).port n' = s.port n' := rfl
@[simp] theorem State.setEp_xport (s : State) (f : Func) (e : Ep0) (n' : Port) : (s.setEp f e).xport n' = s.xport n' := rfl
@[simp] theorem State.setEp_chan (s : State) (f : Func) (e : Ep0) (c' : Chan) : (s.setEp f e).chan c' = s.chan c' := rfl
@[simp] theorem State.setEp_inst (s : State) (f : Func) (e : Ep0) (i' : Inst) : (s.setEp f e).inst i' = s.inst i' := rfl
@[simp] theorem State.setEp_bep (s : State) (f : Func) (e : Ep0) (k' : Fin 12) : (s.setEp f e).bep k' = s.bep k' := rfl
@[simp] theorem State.modEp_hdr (s : State) (f : Func) (g : Ep0 → Ep0) (b' : Blk) : (s.modEp f g).hdr b' = s.hdr b' := rfl
@[simp] theorem State.modEp_port (s : State) (f : Func) (g : Ep0 → Ep0) (n' : Port) : (s.modEp f g).port n' = s.port n' := rfl
@[simp] theorem State.modEp_xport (s : State) (f : Func) (g : Ep0 → Ep0) (n' : Port) : (s.modEp f g).xport n' = s.xport n' := rfl
@[simp] theorem State.modEp_chan (s : State) (f : Func) (g : Ep0 → Ep0) (c' : Chan) : (s.modEp f g).chan c' = s.chan c' := rfl
@[simp] theorem State.modEp_inst (s : State) (f : Func) (g : Ep0 → Ep0) (i' : Inst) : (s.modEp f g).inst i' = s.inst i' := rfl
@[simp] theorem State.modEp_bep (s : State) (f : Func) (g : Ep0 → Ep0) (k' : Fin 12) : (s.modEp f g).bep k' = s.bep k' := rfl
@[simp] theorem State.setBep_hdr (s : State) (k : Fin 12) (e : BEp) (b' : Blk) : (s.setBep k e).hdr b' = s.hdr b' := rfl
@[simp] theorem State.setBep_port (s : State) (k : Fin 12) (e : BEp) (n' : Port) : (s.setBep k e).port n' = s.port n' := rfl
@[simp] theorem State.setBep_xport (s : State) (k : Fin 12) (e : BEp) (n' : Port) : (s.setBep k e).xport n' = s.xport n' := rfl
@[simp] theorem State.setBep_chan (s : State) (k : Fin 12) (e : BEp) (c' : Chan) : (s.setBep k e).chan c' = s.chan c' := rfl
@[simp] theorem State.setBep_inst (s : State) (k : Fin 12) (e : BEp) (i' : Inst) : (s.setBep k e).inst i' = s.inst i' := rfl
@[simp] theorem State.setBep_ep (s : State) (k : Fin 12) (e : BEp) (f' : Func) : (s.setBep k e).ep f' = s.ep f' := rfl
@[simp] theorem State.modBep_hdr (s : State) (k : Fin 12) (f : BEp → BEp) (b' : Blk) : (s.modBep k f).hdr b' = s.hdr b' := rfl
@[simp] theorem State.modBep_port (s : State) (k : Fin 12) (f : BEp → BEp) (n' : Port) : (s.modBep k f).port n' = s.port n' := rfl
@[simp] theorem State.modBep_xport (s : State) (k : Fin 12) (f : BEp → BEp) (n' : Port) : (s.modBep k f).xport n' = s.xport n' := rfl
@[simp] theorem State.modBep_chan (s : State) (k : Fin 12) (f : BEp → BEp) (c' : Chan) : (s.modBep k f).chan c' = s.chan c' := rfl
@[simp] theorem State.modBep_inst (s : State) (k : Fin 12) (f : BEp → BEp) (i' : Inst) : (s.modBep k f).inst i' = s.inst i' := rfl
@[simp] theorem State.modBep_ep (s : State) (k : Fin 12) (f : BEp → BEp) (f' : Func) : (s.modBep k f).ep f' = s.ep f' := rfl
@[simp] theorem evt_port (s : State) (b : Blk) (i : Nat) (n' : Port) : (evt s b i).port n' = s.port n' := rfl
@[simp] theorem evt_xport (s : State) (b : Blk) (i : Nat) (n' : Port) : (evt s b i).xport n' = s.xport n' := rfl
@[simp] theorem evt_chan (s : State) (b : Blk) (i : Nat) (c' : Chan) : (evt s b i).chan c' = s.chan c' := rfl
@[simp] theorem evt_inst (s : State) (b : Blk) (i : Nat) (i' : Inst) : (evt s b i).inst i' = s.inst i' := rfl
@[simp] theorem evt_ep (s : State) (b : Blk) (i : Nat) (f' : Func) : (evt s b i).ep f' = s.ep f' := rfl
@[simp] theorem evt_bep (s : State) (b : Blk) (i : Nat) (k' : Fin 12) : (evt s b i).bep k' = s.bep k' := rfl
@[simp] theorem raise_port (s : State) (b : Blk) (i : Nat) (n' : Port) : (raise s b i).port n' = s.port n' := rfl
@[simp] theorem raise_xport (s : State) (b : Blk) (i : Nat) (n' : Port) : (raise s b i).xport n' = s.xport n' := rfl
@[simp] theorem raise_chan (s : State) (b : Blk) (i : Nat) (c' : Chan) : (raise s b i).chan c' = s.chan c' := rfl
@[simp] theorem raise_inst (s : State) (b : Blk) (i : Nat) (i' : Inst) : (raise s b i).inst i' = s.inst i' := rfl
@[simp] theorem raise_ep (s : State) (b : Blk) (i : Nat) (f' : Func) : (raise s b i).ep f' = s.ep f' := rfl
@[simp] theorem raise_bep (s : State) (b : Blk) (i : Nat) (k' : Fin 12) : (raise s b i).bep k' = s.bep k' := rfl
@[simp] theorem nextFree_hdr (s : State) (b' : Blk) : (nextFree s).hdr b' = s.hdr b' := rfl
@[simp] theorem nextFree_port (s : State) (n' : Port) : (nextFree s).port n' = s.port n' := rfl
@[simp] theorem nextFree_xport (s : State) (n' : Port) : (nextFree s).xport n' = s.xport n' := rfl
@[simp] theorem nextFree_chan (s : State) (c' : Chan) : (nextFree s).chan c' = s.chan c' := rfl
@[simp] theorem nextFree_inst (s : State) (i' : Inst) : (nextFree s).inst i' = s.inst i' := rfl
@[simp] theorem nextFree_ep (s : State) (f' : Func) : (nextFree s).ep f' = s.ep f' := rfl
@[simp] theorem nextFree_bep (s : State) (k' : Fin 12) : (nextFree s).bep k' = s.bep k' := rfl
@[simp] theorem nextStamp_hdr (s : State) (b' : Blk) : (nextStamp s).hdr b' = s.hdr b' := rfl
@[simp] theorem nextStamp_port (s : State) (n' : Port) : (nextStamp s).port n' = s.port n' := rfl
@[simp] theorem nextStamp_xport (s : State) (n' : Port) : (nextStamp s).xport n' = s.xport n' := rfl
@[simp] theorem nextStamp_chan (s : State) (c' : Chan) : (nextStamp s).chan c' = s.chan c' := rfl
@[simp] theorem nextStamp_inst (s : State) (i' : Inst) : (nextStamp s).inst i' = s.inst i' := rfl
@[simp] theorem nextStamp_ep (s : State) (f' : Func) : (nextStamp s).ep f' = s.ep f' := rfl
@[simp] theorem nextStamp_bep (s : State) (k' : Fin 12) : (nextStamp s).bep k' = s.bep k' := rfl
@[simp] theorem sramUnc_hdr (s : State) (b' : Blk) : (sramUnc s).hdr b' = s.hdr b' := rfl
@[simp] theorem sramUnc_port (s : State) (n' : Port) : (sramUnc s).port n' = s.port n' := rfl
@[simp] theorem sramUnc_xport (s : State) (n' : Port) : (sramUnc s).xport n' = s.xport n' := rfl
@[simp] theorem sramUnc_chan (s : State) (c' : Chan) : (sramUnc s).chan c' = s.chan c' := rfl
@[simp] theorem sramUnc_inst (s : State) (i' : Inst) : (sramUnc s).inst i' = s.inst i' := rfl
@[simp] theorem sramUnc_ep (s : State) (f' : Func) : (sramUnc s).ep f' = s.ep f' := rfl
@[simp] theorem sramUnc_bep (s : State) (k' : Fin 12) : (sramUnc s).bep k' = s.bep k' := rfl
@[simp] theorem memStore_hdr (s : State) (a : Nat) (w : Word) (b' : Blk) : (memStore s a w).hdr b' = s.hdr b' := by
  unfold memStore noteFlm; split <;> rfl
@[simp] theorem memStore_port (s : State) (a : Nat) (w : Word) (n' : Port) : (memStore s a w).port n' = s.port n' := by
  unfold memStore noteFlm; split <;> rfl
@[simp] theorem memStore_xport (s : State) (a : Nat) (w : Word) (n' : Port) : (memStore s a w).xport n' = s.xport n' := by
  unfold memStore noteFlm; split <;> rfl
@[simp] theorem memStore_chan (s : State) (a : Nat) (w : Word) (c' : Chan) : (memStore s a w).chan c' = s.chan c' := by
  unfold memStore noteFlm; split <;> rfl
@[simp] theorem memStore_inst (s : State) (a : Nat) (w : Word) (i' : Inst) : (memStore s a w).inst i' = s.inst i' := by
  unfold memStore noteFlm; split <;> rfl
@[simp] theorem memStore_ep (s : State) (a : Nat) (w : Word) (f' : Func) : (memStore s a w).ep f' = s.ep f' := by
  unfold memStore noteFlm; split <;> rfl
@[simp] theorem memStore_bep (s : State) (a : Nat) (w : Word) (k' : Fin 12) : (memStore s a w).bep k' = s.bep k' := by
  unfold memStore noteFlm; split <;> rfl
@[simp] theorem reply_hdr (s : State) (t : RespType) (addr : BitVec 7) (ep : BitVec 4) (seq : Bool) (len : Nat) (p : List Byte) (b' : Blk) : (reply s t addr ep seq len p).hdr b' = s.hdr b' := rfl
@[simp] theorem reply_port (s : State) (t : RespType) (addr : BitVec 7) (ep : BitVec 4) (seq : Bool) (len : Nat) (p : List Byte) (n' : Port) : (reply s t addr ep seq len p).port n' = s.port n' := rfl
@[simp] theorem reply_xport (s : State) (t : RespType) (addr : BitVec 7) (ep : BitVec 4) (seq : Bool) (len : Nat) (p : List Byte) (n' : Port) : (reply s t addr ep seq len p).xport n' = s.xport n' := rfl
@[simp] theorem reply_chan (s : State) (t : RespType) (addr : BitVec 7) (ep : BitVec 4) (seq : Bool) (len : Nat) (p : List Byte) (c' : Chan) : (reply s t addr ep seq len p).chan c' = s.chan c' := rfl
@[simp] theorem reply_inst (s : State) (t : RespType) (addr : BitVec 7) (ep : BitVec 4) (seq : Bool) (len : Nat) (p : List Byte) (i' : Inst) : (reply s t addr ep seq len p).inst i' = s.inst i' := rfl
@[simp] theorem reply_ep (s : State) (t : RespType) (addr : BitVec 7) (ep : BitVec 4) (seq : Bool) (len : Nat) (p : List Byte) (f' : Func) : (reply s t addr ep seq len p).ep f' = s.ep f' := rfl
@[simp] theorem reply_bep (s : State) (t : RespType) (addr : BitVec 7) (ep : BitVec 4) (seq : Bool) (len : Nat) (p : List Byte) (k' : Fin 12) : (reply s t addr ep seq len p).bep k' = s.bep k' := rfl
@[simp] theorem silent_hdr (s : State) (b' : Blk) : (silent s).hdr b' = s.hdr b' := rfl
@[simp] theorem silent_port (s : State) (n' : Port) : (silent s).port n' = s.port n' := rfl
@[simp] theorem silent_xport (s : State) (n' : Port) : (silent s).xport n' = s.xport n' := rfl
@[simp] theorem silent_chan (s : State) (c' : Chan) : (silent s).chan c' = s.chan c' := rfl
@[simp] theorem silent_inst (s : State) (i' : Inst) : (silent s).inst i' = s.inst i' := rfl
@[simp] theorem silent_ep (s : State) (f' : Func) : (silent s).ep f' = s.ep f' := rfl
@[simp] theorem silent_bep (s : State) (k' : Fin 12) : (silent s).bep k' = s.bep k' := rfl

/-! ### Reading back -/

@[simp] theorem State.port_setPort (s : State) (n : Port) (x : PortSt) : (s.setPort n x).port n = x := by
  simp [State.port, State.setPort]
theorem State.port_setPort_ne (s : State) (n m : Port) (x : PortSt) (h : m ≠ n) : (s.setPort n x).port m = s.port m := by
  have h' : n.val ≠ m.val := fun e => h (Fin.ext e.symm)
  simp [State.port, State.setPort, h']
@[simp] theorem State.port_modPort (s : State) (n : Port) (f : PortSt → PortSt) : (s.modPort n f).port n = f (s.port n) := by
  simp [State.modPort]
theorem State.port_modPort_ne (s : State) (n m : Port) (f : PortSt → PortSt) (h : m ≠ n) : (s.modPort n f).port m = s.port m := by
  simp [State.modPort, State.port_setPort_ne _ _ _ _ h]

@[simp] theorem State.xport_setXport (s : State) (n : Port) (x : XPort) : (s.setXport n x).xport n = x := by
  simp [State.xport, State.setXport]
theorem State.xport_setXport_ne (s : State) (n m : Port) (x : XPort) (h : m ≠ n) : (s.setXport n x).xport m = s.xport m := by
  have h' : n.val ≠ m.val := fun e => h (Fin.ext e.symm)
  simp [State.xport, State.setXport, h']
@[simp] theorem State.xport_modXport (s : State) (n : Port) (f : XPort → XPort) : (s.modXport n f).xport n = f (s.xport n) := by
  simp [State.modXport]
theorem State.xport_modXport_ne (s : State) (n m : Port) (f : XPort → XPort) (h : m ≠ n) : (s.modXport n f).xport m = s.xport m := by
  simp [State.modXport, State.xport_setXport_ne _ _ _ _ h]

@[simp] theorem State.chan_setChan (s : State) (c : Chan) (x : Jx) : (s.setChan c x).chan c = x := by
  simp [State.chan, State.setChan]
theorem State.chan_setChan_ne (s : State) (c d : Chan) (x : Jx) (h : d ≠ c) : (s.setChan c x).chan d = s.chan d := by
  have h' : c.val ≠ d.val := fun e => h (Fin.ext e.symm)
  simp [State.chan, State.setChan, h']
@[simp] theorem State.chan_modChan (s : State) (c : Chan) (f : Jx → Jx) : (s.modChan c f).chan c = f (s.chan c) := by
  simp [State.modChan]
theorem State.chan_modChan_ne (s : State) (c d : Chan) (f : Jx → Jx) (h : d ≠ c) : (s.modChan c f).chan d = s.chan d := by
  simp [State.modChan, State.chan_setChan_ne _ _ _ _ h]

@[simp] theorem State.inst_setInst (s : State) (i : Inst) (x : Mvf) : (s.setInst i x).inst i = x := by
  simp [State.inst, State.setInst]
theorem State.inst_setInst_ne (s : State) (i j : Inst) (x : Mvf) (h : j ≠ i) : (s.setInst i x).inst j = s.inst j := by
  have h' : i.val ≠ j.val := fun e => h (Fin.ext e.symm)
  simp [State.inst, State.setInst, h']
@[simp] theorem State.inst_modInst (s : State) (i : Inst) (f : Mvf → Mvf) : (s.modInst i f).inst i = f (s.inst i) := by
  simp [State.modInst]
theorem State.inst_modInst_ne (s : State) (i j : Inst) (f : Mvf → Mvf) (h : j ≠ i) : (s.modInst i f).inst j = s.inst j := by
  simp [State.modInst, State.inst_setInst_ne _ _ _ _ h]

@[simp] theorem State.bep_setBep (s : State) (k : Fin 12) (x : BEp) : (s.setBep k x).bep k = x := by
  simp [State.bep, State.setBep]
theorem State.bep_setBep_ne (s : State) (k l : Fin 12) (x : BEp) (h : l ≠ k) : (s.setBep k x).bep l = s.bep l := by
  have h' : k.val ≠ l.val := fun e => h (Fin.ext e.symm)
  simp [State.bep, State.setBep, h']
@[simp] theorem State.bep_modBep (s : State) (k : Fin 12) (f : BEp → BEp) : (s.modBep k f).bep k = f (s.bep k) := by
  simp [State.modBep]
theorem State.bep_modBep_ne (s : State) (k l : Fin 12) (f : BEp → BEp) (h : l ≠ k) : (s.modBep k f).bep l = s.bep l := by
  simp [State.modBep, State.bep_setBep_ne _ _ _ _ h]

/-- The block at a header index. -/
theorem blkOf_idx (b : Blk) : blkOf b.idx.val = b := by
  cases b <;> first | rfl | (rename_i n; revert n; decide)

/-- The header index names the block. -/
theorem Blk.idx_inj {a b : Blk} (h : a.idx = b.idx) : a = b := by
  rw [← blkOf_idx a, ← blkOf_idx b, h]

@[simp] theorem State.hdr_setHdr (s : State) (b : Blk) (h : Hdr) : (s.setHdr b h).hdr b = h := by
  simp [State.hdr, State.setHdr]
theorem State.hdr_setHdr_ne (s : State) (a b : Blk) (h : Hdr) (ne : a ≠ b) : (s.setHdr b h).hdr a = s.hdr a := by
  have h' : b.idx.val ≠ a.idx.val := fun e => ne (Blk.idx_inj (Fin.ext e.symm))
  simp [State.hdr, State.setHdr, h']
@[simp] theorem State.hdr_modHdr (s : State) (b : Blk) (f : Hdr → Hdr) : (s.modHdr b f).hdr b = f (s.hdr b) := by
  simp [State.modHdr]
theorem State.hdr_modHdr_ne (s : State) (a b : Blk) (f : Hdr → Hdr) (ne : a ≠ b) : (s.modHdr b f).hdr a = s.hdr a := by
  simp [State.modHdr, State.hdr_setHdr_ne _ _ _ _ ne]

/-- EN, SIDING and INRST of every page are as before after an event or an error. -/
@[simp] theorem evt_en (s : State) (a b : Blk) (i : Nat) : ((evt s b i).hdr a).en = (s.hdr a).en := by
  by_cases h : a = b
  · subst h; simp [evt]
  · simp [evt, State.hdr_modHdr_ne _ _ _ _ h]
@[simp] theorem evt_siding (s : State) (a b : Blk) (i : Nat) : ((evt s b i).hdr a).siding = (s.hdr a).siding := by
  by_cases h : a = b
  · subst h; simp [evt]
  · simp [evt, State.hdr_modHdr_ne _ _ _ _ h]
@[simp] theorem evt_inrst (s : State) (a b : Blk) (i : Nat) : ((evt s b i).hdr a).inrst = (s.hdr a).inrst := by
  by_cases h : a = b
  · subst h; simp [evt]
  · simp [evt, State.hdr_modHdr_ne _ _ _ _ h]

end Sys2Proof.Machine
end

