-- ==== Sys2Proof/Laws/Settle.lean ====
section
/-! SUPPORT. What the end of a command does (Machine/Flags.lean, settle): which parts it leaves unchanged, what it does to
page headers and to the power fields, and the frame that follows. -/

namespace Sys2Proof

open Machine

/-- What is exactly as before is as before. -/
theorem Part.exact_same {p : Part} {s t : State} (h : p.exact s t) : p.same s t := by
  cases p <;> first | exact h | (simp only [Part.exact] at h; exact ⟨by rw [h], fun _ => by rw [h]⟩)

end Sys2Proof

namespace Sys2Proof.Machine

/-! ### releaseRound -/

@[simp] theorem releaseRound_pins (s : State) : (releaseRound s).pins = s.pins := rfl
@[simp] theorem releaseRound_rst (s : State) : (releaseRound s).rst = s.rst := rfl
@[simp] theorem releaseRound_opt (s : State) : (releaseRound s).opt = s.opt := rfl
@[simp] theorem releaseRound_sys (s : State) : (releaseRound s).sys = s.sys := rfl
@[simp] theorem releaseRound_dbg (s : State) : (releaseRound s).dbg = s.dbg := rfl
@[simp] theorem releaseRound_bkp (s : State) : (releaseRound s).bkp = s.bkp := rfl
@[simp] theorem releaseRound_upl (s : State) : (releaseRound s).upl = s.upl := rfl
@[simp] theorem releaseRound_hub (s : State) : (releaseRound s).hub = s.hub := rfl
@[simp] theorem releaseRound_ep0 (s : State) : (releaseRound s).ep0 = s.ep0 := rfl
@[simp] theorem releaseRound_beps (s : State) : (releaseRound s).beps = s.beps := rfl
@[simp] theorem releaseRound_ttb (s : State) : (releaseRound s).ttb = s.ttb := rfl
@[simp] theorem releaseRound_ports (s : State) : (releaseRound s).ports = s.ports := rfl
@[simp] theorem releaseRound_lastRise (s : State) : (releaseRound s).lastRise = s.lastRise := rfl
@[simp] theorem releaseRound_xlt (s : State) : (releaseRound s).xlt = s.xlt := rfl
@[simp] theorem releaseRound_jx (s : State) : (releaseRound s).jx = s.jx := rfl
@[simp] theorem releaseRound_mbr (s : State) : (releaseRound s).mbr = s.mbr := rfl
@[simp] theorem releaseRound_mvf (s : State) : (releaseRound s).mvf = s.mvf := rfl
@[simp] theorem releaseRound_flt (s : State) : (releaseRound s).flt = s.flt := rfl
@[simp] theorem releaseRound_mem (s : State) : (releaseRound s).mem = s.mem := rfl
@[simp] theorem releaseRound_parBad (s : State) : (releaseRound s).parBad = s.parBad := rfl
@[simp] theorem releaseRound_now (s : State) : (releaseRound s).now = s.now := rfl
@[simp] theorem releaseRound_free (s : State) : (releaseRound s).free = s.free := rfl
@[simp] theorem releaseRound_stamp (s : State) : (releaseRound s).stamp = s.stamp := rfl
@[simp] theorem releaseRound_answer (s : State) : (releaseRound s).answer = s.answer := rfl
@[simp] theorem releaseRound_sent (s : State) : (releaseRound s).sent = s.sent := rfl
@[simp] theorem releaseRound_repUp (s : State) : (releaseRound s).repUp = s.repUp := rfl
@[simp] theorem releaseRound_flmOld (s : State) : (releaseRound s).flmOld = s.flmOld := rfl
@[simp] theorem releaseRound_pending (s : State) : (releaseRound s).pending = s.pending := rfl
@[simp] theorem releaseRound_hdrs (s : State) : (releaseRound s).hdrs = s.hdrs := rfl
@[simp] theorem releaseRound_clk (s : State) : (releaseRound s).clk = s.clk := rfl

/-! ### restoreCore -/

@[simp] theorem restoreCore_pins (s : State) : (restoreCore s).pins = s.pins := by
  unfold restoreCore; split <;> rfl
@[simp] theorem restoreCore_rst (s : State) : (restoreCore s).rst = s.rst := by
  unfold restoreCore; split <;> rfl
@[simp] theorem restoreCore_opt (s : State) : (restoreCore s).opt = s.opt := by
  unfold restoreCore; split <;> rfl
@[simp] theorem restoreCore_sys (s : State) : (restoreCore s).sys = s.sys := by
  unfold restoreCore; split <;> rfl
@[simp] theorem restoreCore_dbg (s : State) : (restoreCore s).dbg = s.dbg := by
  unfold restoreCore; split <;> rfl
@[simp] theorem restoreCore_bkp (s : State) : (restoreCore s).bkp = s.bkp := by
  unfold restoreCore; split <;> rfl
@[simp] theorem restoreCore_upl (s : State) : (restoreCore s).upl = s.upl := by
  unfold restoreCore; split <;> rfl
@[simp] theorem restoreCore_hub (s : State) : (restoreCore s).hub = s.hub := by
  unfold restoreCore; split <;> rfl
@[simp] theorem restoreCore_ep0 (s : State) : (restoreCore s).ep0 = s.ep0 := by
  unfold restoreCore; split <;> rfl
@[simp] theorem restoreCore_beps (s : State) : (restoreCore s).beps = s.beps := by
  unfold restoreCore; split <;> rfl
@[simp] theorem restoreCore_ttb (s : State) : (restoreCore s).ttb = s.ttb := by
  unfold restoreCore; split <;> rfl
@[simp] theorem restoreCore_ports (s : State) : (restoreCore s).ports = s.ports := by
  unfold restoreCore; split <;> rfl
@[simp] theorem restoreCore_lastRise (s : State) : (restoreCore s).lastRise = s.lastRise := by
  unfold restoreCore; split <;> rfl
@[simp] theorem restoreCore_xlt (s : State) : (restoreCore s).xlt = s.xlt := by
  unfold restoreCore; split <;> rfl
@[simp] theorem restoreCore_jx (s : State) : (restoreCore s).jx = s.jx := by
  unfold restoreCore; split <;> rfl
@[simp] theorem restoreCore_mbr (s : State) : (restoreCore s).mbr = s.mbr := by
  unfold restoreCore; split <;> rfl
@[simp] theorem restoreCore_mvf (s : State) : (restoreCore s).mvf = s.mvf := by
  unfold restoreCore; split <;> rfl
@[simp] theorem restoreCore_flt (s : State) : (restoreCore s).flt = s.flt := by
  unfold restoreCore; split <;> rfl
@[simp] theorem restoreCore_mem (s : State) : (restoreCore s).mem = s.mem := by
  unfold restoreCore; split <;> rfl
@[simp] theorem restoreCore_parBad (s : State) : (restoreCore s).parBad = s.parBad := by
  unfold restoreCore; split <;> rfl
@[simp] theorem restoreCore_now (s : State) : (restoreCore s).now = s.now := by
  unfold restoreCore; split <;> rfl
@[simp] theorem restoreCore_free (s : State) : (restoreCore s).free = s.free := by
  unfold restoreCore; split <;> rfl
@[simp] theorem restoreCore_stamp (s : State) : (restoreCore s).stamp = s.stamp := by
  unfold restoreCore; split <;> rfl
@[simp] theorem restoreCore_answer (s : State) : (restoreCore s).answer = s.answer := by
  unfold restoreCore; split <;> rfl
@[simp] theorem restoreCore_sent (s : State) : (restoreCore s).sent = s.sent := by
  unfold restoreCore; split <;> rfl
@[simp] theorem restoreCore_repUp (s : State) : (restoreCore s).repUp = s.repUp := by
  unfold restoreCore; split <;> rfl
@[simp] theorem restoreCore_flmOld (s : State) : (restoreCore s).flmOld = s.flmOld := by
  unfold restoreCore; split <;> rfl
@[simp] theorem restoreCore_pending (s : State) : (restoreCore s).pending = s.pending := by
  unfold restoreCore; split <;> rfl
@[simp] theorem restoreCore_hdrs (s : State) : (restoreCore s).hdrs = s.hdrs := by
  unfold restoreCore; split <;> rfl
@[simp] theorem restoreCore_aon (s : State) : (restoreCore s).aon = s.aon := by
  unfold restoreCore; split <;> rfl

/-! ### endRound -/

@[simp] theorem endRound_pins (s : State) (r : BitVec 4) (k : Byte) : (endRound s r k).pins = s.pins := by
  unfold endRound; dsimp only; split <;> simp
@[simp] theorem endRound_rst (s : State) (r : BitVec 4) (k : Byte) : (endRound s r k).rst = s.rst := by
  unfold endRound; dsimp only; split <;> simp
@[simp] theorem endRound_opt (s : State) (r : BitVec 4) (k : Byte) : (endRound s r k).opt = s.opt := by
  unfold endRound; dsimp only; split <;> simp
@[simp] theorem endRound_sys (s : State) (r : BitVec 4) (k : Byte) : (endRound s r k).sys = s.sys := by
  unfold endRound; dsimp only; split <;> simp
@[simp] theorem endRound_dbg (s : State) (r : BitVec 4) (k : Byte) : (endRound s r k).dbg = s.dbg := by
  unfold endRound; dsimp only; split <;> simp
@[simp] theorem endRound_bkp (s : State) (r : BitVec 4) (k : Byte) : (endRound s r k).bkp = s.bkp := by
  unfold endRound; dsimp only; split <;> simp
@[simp] theorem endRound_upl (s : State) (r : BitVec 4) (k : Byte) : (endRound s r k).upl = s.upl := by
  unfold endRound; dsimp only; split <;> simp
@[simp] theorem endRound_hub (s : State) (r : BitVec 4) (k : Byte) : (endRound s r k).hub = s.hub := by
  unfold endRound; dsimp only; split <;> simp
@[simp] theorem endRound_ep0 (s : State) (r : BitVec 4) (k : Byte) : (endRound s r k).ep0 = s.ep0 := by
  unfold endRound; dsimp only; split <;> simp
@[simp] theorem endRound_beps (s : State) (r : BitVec 4) (k : Byte) : (endRound s r k).beps = s.beps := by
  unfold endRound; dsimp only; split <;> simp
@[simp] theorem endRound_ttb (s : State) (r : BitVec 4) (k : Byte) : (endRound s r k).ttb = s.ttb := by
  unfold endRound; dsimp only; split <;> simp
@[simp] theorem endRound_ports (s : State) (r : BitVec 4) (k : Byte) : (endRound s r k).ports = s.ports := by
  unfold endRound; dsimp only; split <;> simp
@[simp] theorem endRound_lastRise (s : State) (r : BitVec 4) (k : Byte) : (endRound s r k).lastRise = s.lastRise := by
  unfold endRound; dsimp only; split <;> simp
@[simp] theorem endRound_xlt (s : State) (r : BitVec 4) (k : Byte) : (endRound s r k).xlt = s.xlt := by
  unfold endRound; dsimp only; split <;> simp
@[simp] theorem endRound_jx (s : State) (r : BitVec 4) (k : Byte) : (endRound s r k).jx = s.jx := by
  unfold endRound; dsimp only; split <;> simp
@[simp] theorem endRound_mbr (s : State) (r : BitVec 4) (k : Byte) : (endRound s r k).mbr = s.mbr := by
  unfold endRound; dsimp only; split <;> simp
@[simp] theorem endRound_mvf (s : State) (r : BitVec 4) (k : Byte) : (endRound s r k).mvf = s.mvf := by
  unfold endRound; dsimp only; split <;> simp
@[simp] theorem endRound_flt (s : State) (r : BitVec 4) (k : Byte) : (endRound s r k).flt = s.flt := by
  unfold endRound; dsimp only; split <;> simp
@[simp] theorem endRound_mem (s : State) (r : BitVec 4) (k : Byte) : (endRound s r k).mem = s.mem := by
  unfold endRound; dsimp only; split <;> simp
@[simp] theorem endRound_parBad (s : State) (r : BitVec 4) (k : Byte) : (endRound s r k).parBad = s.parBad := by
  unfold endRound; dsimp only; split <;> simp
@[simp] theorem endRound_now (s : State) (r : BitVec 4) (k : Byte) : (endRound s r k).now = s.now := by
  unfold endRound; dsimp only; split <;> simp
@[simp] theorem endRound_free (s : State) (r : BitVec 4) (k : Byte) : (endRound s r k).free = s.free := by
  unfold endRound; dsimp only; split <;> simp
@[simp] theorem endRound_stamp (s : State) (r : BitVec 4) (k : Byte) : (endRound s r k).stamp = s.stamp := by
  unfold endRound; dsimp only; split <;> simp
@[simp] theorem endRound_answer (s : State) (r : BitVec 4) (k : Byte) : (endRound s r k).answer = s.answer := by
  unfold endRound; dsimp only; split <;> simp
@[simp] theorem endRound_sent (s : State) (r : BitVec 4) (k : Byte) : (endRound s r k).sent = s.sent := by
  unfold endRound; dsimp only; split <;> simp
@[simp] theorem endRound_repUp (s : State) (r : BitVec 4) (k : Byte) : (endRound s r k).repUp = s.repUp := by
  unfold endRound; dsimp only; split <;> simp
@[simp] theorem endRound_flmOld (s : State) (r : BitVec 4) (k : Byte) : (endRound s r k).flmOld = s.flmOld := by
  unfold endRound; dsimp only; split <;> simp
@[simp] theorem endRound_pending (s : State) (r : BitVec 4) (k : Byte) : (endRound s r k).pending = s.pending := by
  unfold endRound; dsimp only; split <;> simp

/-! ### settleRound -/

@[simp] theorem settleRound_pins (s : State) : (settleRound s).pins = s.pins := by
  unfold settleRound; split <;> first | rfl | (split <;> first | rfl | simp)
@[simp] theorem settleRound_rst (s : State) : (settleRound s).rst = s.rst := by
  unfold settleRound; split <;> first | rfl | (split <;> first | rfl | simp)
@[simp] theorem settleRound_opt (s : State) : (settleRound s).opt = s.opt := by
  unfold settleRound; split <;> first | rfl | (split <;> first | rfl | simp)
@[simp] theorem settleRound_sys (s : State) : (settleRound s).sys = s.sys := by
  unfold settleRound; split <;> first | rfl | (split <;> first | rfl | simp)
@[simp] theorem settleRound_dbg (s : State) : (settleRound s).dbg = s.dbg := by
  unfold settleRound; split <;> first | rfl | (split <;> first | rfl | simp)
@[simp] theorem settleRound_bkp (s : State) : (settleRound s).bkp = s.bkp := by
  unfold settleRound; split <;> first | rfl | (split <;> first | rfl | simp)
@[simp] theorem settleRound_upl (s : State) : (settleRound s).upl = s.upl := by
  unfold settleRound; split <;> first | rfl | (split <;> first | rfl | simp)
@[simp] theorem settleRound_hub (s : State) : (settleRound s).hub = s.hub := by
  unfold settleRound; split <;> first | rfl | (split <;> first | rfl | simp)
@[simp] theorem settleRound_ep0 (s : State) : (settleRound s).ep0 = s.ep0 := by
  unfold settleRound; split <;> first | rfl | (split <;> first | rfl | simp)
@[simp] theorem settleRound_beps (s : State) : (settleRound s).beps = s.beps := by
  unfold settleRound; split <;> first | rfl | (split <;> first | rfl | simp)
@[simp] theorem settleRound_ttb (s : State) : (settleRound s).ttb = s.ttb := by
  unfold settleRound; split <;> first | rfl | (split <;> first | rfl | simp)
@[simp] theorem settleRound_ports (s : State) : (settleRound s).ports = s.ports := by
  unfold settleRound; split <;> first | rfl | (split <;> first | rfl | simp)
@[simp] theorem settleRound_lastRise (s : State) : (settleRound s).lastRise = s.lastRise := by
  unfold settleRound; split <;> first | rfl | (split <;> first | rfl | simp)
@[simp] theorem settleRound_xlt (s : State) : (settleRound s).xlt = s.xlt := by
  unfold settleRound; split <;> first | rfl | (split <;> first | rfl | simp)
@[simp] theorem settleRound_jx (s : State) : (settleRound s).jx = s.jx := by
  unfold settleRound; split <;> first | rfl | (split <;> first | rfl | simp)
@[simp] theorem settleRound_mbr (s : State) : (settleRound s).mbr = s.mbr := by
  unfold settleRound; split <;> first | rfl | (split <;> first | rfl | simp)
@[simp] theorem settleRound_mvf (s : State) : (settleRound s).mvf = s.mvf := by
  unfold settleRound; split <;> first | rfl | (split <;> first | rfl | simp)
@[simp] theorem settleRound_flt (s : State) : (settleRound s).flt = s.flt := by
  unfold settleRound; split <;> first | rfl | (split <;> first | rfl | simp)
@[simp] theorem settleRound_mem (s : State) : (settleRound s).mem = s.mem := by
  unfold settleRound; split <;> first | rfl | (split <;> first | rfl | simp)
@[simp] theorem settleRound_parBad (s : State) : (settleRound s).parBad = s.parBad := by
  unfold settleRound; split <;> first | rfl | (split <;> first | rfl | simp)
@[simp] theorem settleRound_now (s : State) : (settleRound s).now = s.now := by
  unfold settleRound; split <;> first | rfl | (split <;> first | rfl | simp)
@[simp] theorem settleRound_free (s : State) : (settleRound s).free = s.free := by
  unfold settleRound; split <;> first | rfl | (split <;> first | rfl | simp)
@[simp] theorem settleRound_stamp (s : State) : (settleRound s).stamp = s.stamp := by
  unfold settleRound; split <;> first | rfl | (split <;> first | rfl | simp)
@[simp] theorem settleRound_answer (s : State) : (settleRound s).answer = s.answer := by
  unfold settleRound; split <;> first | rfl | (split <;> first | rfl | simp)
@[simp] theorem settleRound_sent (s : State) : (settleRound s).sent = s.sent := by
  unfold settleRound; split <;> first | rfl | (split <;> first | rfl | simp)
@[simp] theorem settleRound_repUp (s : State) : (settleRound s).repUp = s.repUp := by
  unfold settleRound; split <;> first | rfl | (split <;> first | rfl | simp)
@[simp] theorem settleRound_flmOld (s : State) : (settleRound s).flmOld = s.flmOld := by
  unfold settleRound; split <;> first | rfl | (split <;> first | rfl | simp)
@[simp] theorem settleRound_pending (s : State) : (settleRound s).pending = s.pending := by
  unfold settleRound; split <;> first | rfl | (split <;> first | rfl | simp)

/-! ### idleBreak -/

@[simp] theorem idleBreak_pins (s : State) : (idleBreak s).pins = s.pins := by
  unfold idleBreak; split <;> rfl
@[simp] theorem idleBreak_rst (s : State) : (idleBreak s).rst = s.rst := by
  unfold idleBreak; split <;> rfl
@[simp] theorem idleBreak_opt (s : State) : (idleBreak s).opt = s.opt := by
  unfold idleBreak; split <;> rfl
@[simp] theorem idleBreak_sys (s : State) : (idleBreak s).sys = s.sys := by
  unfold idleBreak; split <;> rfl
@[simp] theorem idleBreak_dbg (s : State) : (idleBreak s).dbg = s.dbg := by
  unfold idleBreak; split <;> rfl
@[simp] theorem idleBreak_bkp (s : State) : (idleBreak s).bkp = s.bkp := by
  unfold idleBreak; split <;> rfl
@[simp] theorem idleBreak_upl (s : State) : (idleBreak s).upl = s.upl := by
  unfold idleBreak; split <;> rfl
@[simp] theorem idleBreak_hub (s : State) : (idleBreak s).hub = s.hub := by
  unfold idleBreak; split <;> rfl
@[simp] theorem idleBreak_ep0 (s : State) : (idleBreak s).ep0 = s.ep0 := by
  unfold idleBreak; split <;> rfl
@[simp] theorem idleBreak_beps (s : State) : (idleBreak s).beps = s.beps := by
  unfold idleBreak; split <;> rfl
@[simp] theorem idleBreak_ttb (s : State) : (idleBreak s).ttb = s.ttb := by
  unfold idleBreak; split <;> rfl
@[simp] theorem idleBreak_ports (s : State) : (idleBreak s).ports = s.ports := by
  unfold idleBreak; split <;> rfl
@[simp] theorem idleBreak_lastRise (s : State) : (idleBreak s).lastRise = s.lastRise := by
  unfold idleBreak; split <;> rfl
@[simp] theorem idleBreak_xlt (s : State) : (idleBreak s).xlt = s.xlt := by
  unfold idleBreak; split <;> rfl
@[simp] theorem idleBreak_jx (s : State) : (idleBreak s).jx = s.jx := by
  unfold idleBreak; split <;> rfl
@[simp] theorem idleBreak_mbr (s : State) : (idleBreak s).mbr = s.mbr := by
  unfold idleBreak; split <;> rfl
@[simp] theorem idleBreak_mvf (s : State) : (idleBreak s).mvf = s.mvf := by
  unfold idleBreak; split <;> rfl
@[simp] theorem idleBreak_flt (s : State) : (idleBreak s).flt = s.flt := by
  unfold idleBreak; split <;> rfl
@[simp] theorem idleBreak_mem (s : State) : (idleBreak s).mem = s.mem := by
  unfold idleBreak; split <;> rfl
@[simp] theorem idleBreak_parBad (s : State) : (idleBreak s).parBad = s.parBad := by
  unfold idleBreak; split <;> rfl
@[simp] theorem idleBreak_now (s : State) : (idleBreak s).now = s.now := by
  unfold idleBreak; split <;> rfl
@[simp] theorem idleBreak_free (s : State) : (idleBreak s).free = s.free := by
  unfold idleBreak; split <;> rfl
@[simp] theorem idleBreak_stamp (s : State) : (idleBreak s).stamp = s.stamp := by
  unfold idleBreak; split <;> rfl
@[simp] theorem idleBreak_answer (s : State) : (idleBreak s).answer = s.answer := by
  unfold idleBreak; split <;> rfl
@[simp] theorem idleBreak_sent (s : State) : (idleBreak s).sent = s.sent := by
  unfold idleBreak; split <;> rfl
@[simp] theorem idleBreak_repUp (s : State) : (idleBreak s).repUp = s.repUp := by
  unfold idleBreak; split <;> rfl
@[simp] theorem idleBreak_flmOld (s : State) : (idleBreak s).flmOld = s.flmOld := by
  unfold idleBreak; split <;> rfl
@[simp] theorem idleBreak_pending (s : State) : (idleBreak s).pending = s.pending := by
  unfold idleBreak; split <;> rfl
@[simp] theorem idleBreak_hdrs (s : State) : (idleBreak s).hdrs = s.hdrs := by
  unfold idleBreak; split <;> rfl
@[simp] theorem idleBreak_clk (s : State) : (idleBreak s).clk = s.clk := by
  unfold idleBreak; split <;> rfl
@[simp] theorem idleBreak_aon (s : State) : (idleBreak s).aon = s.aon := by
  unfold idleBreak; split <;> rfl

/-! ### levelImg, levelOvc, levelErrors -/

@[simp] theorem levelImg_pins (s : State) : (levelImg s).pins = s.pins := by
  unfold levelImg; split <;> simp
@[simp] theorem levelImg_rst (s : State) : (levelImg s).rst = s.rst := by
  unfold levelImg; split <;> simp
@[simp] theorem levelImg_opt (s : State) : (levelImg s).opt = s.opt := by
  unfold levelImg; split <;> simp
@[simp] theorem levelImg_sys (s : State) : (levelImg s).sys = s.sys := by
  unfold levelImg; split <;> simp
@[simp] theorem levelImg_dbg (s : State) : (levelImg s).dbg = s.dbg := by
  unfold levelImg; split <;> simp
@[simp] theorem levelImg_bkp (s : State) : (levelImg s).bkp = s.bkp := by
  unfold levelImg; split <;> simp
@[simp] theorem levelImg_upl (s : State) : (levelImg s).upl = s.upl := by
  unfold levelImg; split <;> simp
@[simp] theorem levelImg_hub (s : State) : (levelImg s).hub = s.hub := by
  unfold levelImg; split <;> simp
@[simp] theorem levelImg_ep0 (s : State) : (levelImg s).ep0 = s.ep0 := by
  unfold levelImg; split <;> simp
@[simp] theorem levelImg_beps (s : State) : (levelImg s).beps = s.beps := by
  unfold levelImg; split <;> simp
@[simp] theorem levelImg_ttb (s : State) : (levelImg s).ttb = s.ttb := by
  unfold levelImg; split <;> simp
@[simp] theorem levelImg_ports (s : State) : (levelImg s).ports = s.ports := by
  unfold levelImg; split <;> simp
@[simp] theorem levelImg_lastRise (s : State) : (levelImg s).lastRise = s.lastRise := by
  unfold levelImg; split <;> simp
@[simp] theorem levelImg_xlt (s : State) : (levelImg s).xlt = s.xlt := by
  unfold levelImg; split <;> simp
@[simp] theorem levelImg_jx (s : State) : (levelImg s).jx = s.jx := by
  unfold levelImg; split <;> simp
@[simp] theorem levelImg_mbr (s : State) : (levelImg s).mbr = s.mbr := by
  unfold levelImg; split <;> simp
@[simp] theorem levelImg_mvf (s : State) : (levelImg s).mvf = s.mvf := by
  unfold levelImg; split <;> simp
@[simp] theorem levelImg_flt (s : State) : (levelImg s).flt = s.flt := by
  unfold levelImg; split <;> simp
@[simp] theorem levelImg_mem (s : State) : (levelImg s).mem = s.mem := by
  unfold levelImg; split <;> simp
@[simp] theorem levelImg_parBad (s : State) : (levelImg s).parBad = s.parBad := by
  unfold levelImg; split <;> simp
@[simp] theorem levelImg_now (s : State) : (levelImg s).now = s.now := by
  unfold levelImg; split <;> simp
@[simp] theorem levelImg_free (s : State) : (levelImg s).free = s.free := by
  unfold levelImg; split <;> simp
@[simp] theorem levelImg_stamp (s : State) : (levelImg s).stamp = s.stamp := by
  unfold levelImg; split <;> simp
@[simp] theorem levelImg_answer (s : State) : (levelImg s).answer = s.answer := by
  unfold levelImg; split <;> simp
@[simp] theorem levelImg_sent (s : State) : (levelImg s).sent = s.sent := by
  unfold levelImg; split <;> simp
@[simp] theorem levelImg_repUp (s : State) : (levelImg s).repUp = s.repUp := by
  unfold levelImg; split <;> simp
@[simp] theorem levelImg_flmOld (s : State) : (levelImg s).flmOld = s.flmOld := by
  unfold levelImg; split <;> simp
@[simp] theorem levelImg_pending (s : State) : (levelImg s).pending = s.pending := by
  unfold levelImg; split <;> simp
@[simp] theorem levelImg_pwr (s : State) : (levelImg s).pwr = s.pwr := by
  unfold levelImg; split <;> simp
@[simp] theorem levelImg_clk (s : State) : (levelImg s).clk = s.clk := by
  unfold levelImg; split <;> simp
@[simp] theorem levelImg_aon (s : State) : (levelImg s).aon = s.aon := by
  unfold levelImg; split <;> simp
@[simp] theorem levelOvc_pins (s : State) (n : Port) : (levelOvc s n).pins = s.pins := by
  unfold levelOvc; split <;> simp
@[simp] theorem levelOvc_rst (s : State) (n : Port) : (levelOvc s n).rst = s.rst := by
  unfold levelOvc; split <;> simp
@[simp] theorem levelOvc_opt (s : State) (n : Port) : (levelOvc s n).opt = s.opt := by
  unfold levelOvc; split <;> simp
@[simp] theorem levelOvc_sys (s : State) (n : Port) : (levelOvc s n).sys = s.sys := by
  unfold levelOvc; split <;> simp
@[simp] theorem levelOvc_dbg (s : State) (n : Port) : (levelOvc s n).dbg = s.dbg := by
  unfold levelOvc; split <;> simp
@[simp] theorem levelOvc_bkp (s : State) (n : Port) : (levelOvc s n).bkp = s.bkp := by
  unfold levelOvc; split <;> simp
@[simp] theorem levelOvc_upl (s : State) (n : Port) : (levelOvc s n).upl = s.upl := by
  unfold levelOvc; split <;> simp
@[simp] theorem levelOvc_hub (s : State) (n : Port) : (levelOvc s n).hub = s.hub := by
  unfold levelOvc; split <;> simp
@[simp] theorem levelOvc_ep0 (s : State) (n : Port) : (levelOvc s n).ep0 = s.ep0 := by
  unfold levelOvc; split <;> simp
@[simp] theorem levelOvc_beps (s : State) (n : Port) : (levelOvc s n).beps = s.beps := by
  unfold levelOvc; split <;> simp
@[simp] theorem levelOvc_ttb (s : State) (n : Port) : (levelOvc s n).ttb = s.ttb := by
  unfold levelOvc; split <;> simp
@[simp] theorem levelOvc_ports (s : State) (n : Port) : (levelOvc s n).ports = s.ports := by
  unfold levelOvc; split <;> simp
@[simp] theorem levelOvc_lastRise (s : State) (n : Port) : (levelOvc s n).lastRise = s.lastRise := by
  unfold levelOvc; split <;> simp
@[simp] theorem levelOvc_xlt (s : State) (n : Port) : (levelOvc s n).xlt = s.xlt := by
  unfold levelOvc; split <;> simp
@[simp] theorem levelOvc_jx (s : State) (n : Port) : (levelOvc s n).jx = s.jx := by
  unfold levelOvc; split <;> simp
@[simp] theorem levelOvc_mbr (s : State) (n : Port) : (levelOvc s n).mbr = s.mbr := by
  unfold levelOvc; split <;> simp
@[simp] theorem levelOvc_mvf (s : State) (n : Port) : (levelOvc s n).mvf = s.mvf := by
  unfold levelOvc; split <;> simp
@[simp] theorem levelOvc_flt (s : State) (n : Port) : (levelOvc s n).flt = s.flt := by
  unfold levelOvc; split <;> simp
@[simp] theorem levelOvc_mem (s : State) (n : Port) : (levelOvc s n).mem = s.mem := by
  unfold levelOvc; split <;> simp
@[simp] theorem levelOvc_parBad (s : State) (n : Port) : (levelOvc s n).parBad = s.parBad := by
  unfold levelOvc; split <;> simp
@[simp] theorem levelOvc_now (s : State) (n : Port) : (levelOvc s n).now = s.now := by
  unfold levelOvc; split <;> simp
@[simp] theorem levelOvc_free (s : State) (n : Port) : (levelOvc s n).free = s.free := by
  unfold levelOvc; split <;> simp
@[simp] theorem levelOvc_stamp (s : State) (n : Port) : (levelOvc s n).stamp = s.stamp := by
  unfold levelOvc; split <;> simp
@[simp] theorem levelOvc_answer (s : State) (n : Port) : (levelOvc s n).answer = s.answer := by
  unfold levelOvc; split <;> simp
@[simp] theorem levelOvc_sent (s : State) (n : Port) : (levelOvc s n).sent = s.sent := by
  unfold levelOvc; split <;> simp
@[simp] theorem levelOvc_repUp (s : State) (n : Port) : (levelOvc s n).repUp = s.repUp := by
  unfold levelOvc; split <;> simp
@[simp] theorem levelOvc_flmOld (s : State) (n : Port) : (levelOvc s n).flmOld = s.flmOld := by
  unfold levelOvc; split <;> simp
@[simp] theorem levelOvc_pending (s : State) (n : Port) : (levelOvc s n).pending = s.pending := by
  unfold levelOvc; split <;> simp
@[simp] theorem levelOvc_pwr (s : State) (n : Port) : (levelOvc s n).pwr = s.pwr := by
  unfold levelOvc; split <;> simp
@[simp] theorem levelOvc_clk (s : State) (n : Port) : (levelOvc s n).clk = s.clk := by
  unfold levelOvc; split <;> simp
@[simp] theorem levelOvc_aon (s : State) (n : Port) : (levelOvc s n).aon = s.aon := by
  unfold levelOvc; split <;> simp
@[simp] theorem levelErrors_pins (s : State) : (levelErrors s).pins = s.pins := by
  simp [levelErrors, allPorts]
@[simp] theorem levelErrors_rst (s : State) : (levelErrors s).rst = s.rst := by
  simp [levelErrors, allPorts]
@[simp] theorem levelErrors_opt (s : State) : (levelErrors s).opt = s.opt := by
  simp [levelErrors, allPorts]
@[simp] theorem levelErrors_sys (s : State) : (levelErrors s).sys = s.sys := by
  simp [levelErrors, allPorts]
@[simp] theorem levelErrors_dbg (s : State) : (levelErrors s).dbg = s.dbg := by
  simp [levelErrors, allPorts]
@[simp] theorem levelErrors_bkp (s : State) : (levelErrors s).bkp = s.bkp := by
  simp [levelErrors, allPorts]
@[simp] theorem levelErrors_upl (s : State) : (levelErrors s).upl = s.upl := by
  simp [levelErrors, allPorts]
@[simp] theorem levelErrors_hub (s : State) : (levelErrors s).hub = s.hub := by
  simp [levelErrors, allPorts]
@[simp] theorem levelErrors_ep0 (s : State) : (levelErrors s).ep0 = s.ep0 := by
  simp [levelErrors, allPorts]
@[simp] theorem levelErrors_beps (s : State) : (levelErrors s).beps = s.beps := by
  simp [levelErrors, allPorts]
@[simp] theorem levelErrors_ttb (s : State) : (levelErrors s).ttb = s.ttb := by
  simp [levelErrors, allPorts]
@[simp] theorem levelErrors_ports (s : State) : (levelErrors s).ports = s.ports := by
  simp [levelErrors, allPorts]
@[simp] theorem levelErrors_lastRise (s : State) : (levelErrors s).lastRise = s.lastRise := by
  simp [levelErrors, allPorts]
@[simp] theorem levelErrors_xlt (s : State) : (levelErrors s).xlt = s.xlt := by
  simp [levelErrors, allPorts]
@[simp] theorem levelErrors_jx (s : State) : (levelErrors s).jx = s.jx := by
  simp [levelErrors, allPorts]
@[simp] theorem levelErrors_mbr (s : State) : (levelErrors s).mbr = s.mbr := by
  simp [levelErrors, allPorts]
@[simp] theorem levelErrors_mvf (s : State) : (levelErrors s).mvf = s.mvf := by
  simp [levelErrors, allPorts]
@[simp] theorem levelErrors_flt (s : State) : (levelErrors s).flt = s.flt := by
  simp [levelErrors, allPorts]
@[simp] theorem levelErrors_mem (s : State) : (levelErrors s).mem = s.mem := by
  simp [levelErrors, allPorts]
@[simp] theorem levelErrors_parBad (s : State) : (levelErrors s).parBad = s.parBad := by
  simp [levelErrors, allPorts]
@[simp] theorem levelErrors_now (s : State) : (levelErrors s).now = s.now := by
  simp [levelErrors, allPorts]
@[simp] theorem levelErrors_free (s : State) : (levelErrors s).free = s.free := by
  simp [levelErrors, allPorts]
@[simp] theorem levelErrors_stamp (s : State) : (levelErrors s).stamp = s.stamp := by
  simp [levelErrors, allPorts]
@[simp] theorem levelErrors_answer (s : State) : (levelErrors s).answer = s.answer := by
  simp [levelErrors, allPorts]
@[simp] theorem levelErrors_sent (s : State) : (levelErrors s).sent = s.sent := by
  simp [levelErrors, allPorts]
@[simp] theorem levelErrors_repUp (s : State) : (levelErrors s).repUp = s.repUp := by
  simp [levelErrors, allPorts]
@[simp] theorem levelErrors_flmOld (s : State) : (levelErrors s).flmOld = s.flmOld := by
  simp [levelErrors, allPorts]
@[simp] theorem levelErrors_pending (s : State) : (levelErrors s).pending = s.pending := by
  simp [levelErrors, allPorts]
@[simp] theorem levelErrors_pwr (s : State) : (levelErrors s).pwr = s.pwr := by
  simp [levelErrors, allPorts]
@[simp] theorem levelErrors_clk (s : State) : (levelErrors s).clk = s.clk := by
  simp [levelErrors, allPorts]
@[simp] theorem levelErrors_aon (s : State) : (levelErrors s).aon = s.aon := by
  simp [levelErrors, allPorts]

/-! ### levelEvents -/

@[simp] theorem levelEvents_pins (s : State) : (levelEvents s).pins = s.pins := rfl
@[simp] theorem levelEvents_rst (s : State) : (levelEvents s).rst = s.rst := rfl
@[simp] theorem levelEvents_opt (s : State) : (levelEvents s).opt = s.opt := rfl
@[simp] theorem levelEvents_sys (s : State) : (levelEvents s).sys = s.sys := rfl
@[simp] theorem levelEvents_dbg (s : State) : (levelEvents s).dbg = s.dbg := rfl
@[simp] theorem levelEvents_bkp (s : State) : (levelEvents s).bkp = s.bkp := rfl
@[simp] theorem levelEvents_upl (s : State) : (levelEvents s).upl = s.upl := rfl
@[simp] theorem levelEvents_hub (s : State) : (levelEvents s).hub = s.hub := rfl
@[simp] theorem levelEvents_ep0 (s : State) : (levelEvents s).ep0 = s.ep0 := rfl
@[simp] theorem levelEvents_beps (s : State) : (levelEvents s).beps = s.beps := rfl
@[simp] theorem levelEvents_ttb (s : State) : (levelEvents s).ttb = s.ttb := rfl
@[simp] theorem levelEvents_ports (s : State) : (levelEvents s).ports = s.ports := rfl
@[simp] theorem levelEvents_lastRise (s : State) : (levelEvents s).lastRise = s.lastRise := rfl
@[simp] theorem levelEvents_xlt (s : State) : (levelEvents s).xlt = s.xlt := rfl
@[simp] theorem levelEvents_jx (s : State) : (levelEvents s).jx = s.jx := rfl
@[simp] theorem levelEvents_mbr (s : State) : (levelEvents s).mbr = s.mbr := rfl
@[simp] theorem levelEvents_mvf (s : State) : (levelEvents s).mvf = s.mvf := rfl
@[simp] theorem levelEvents_flt (s : State) : (levelEvents s).flt = s.flt := rfl
@[simp] theorem levelEvents_mem (s : State) : (levelEvents s).mem = s.mem := rfl
@[simp] theorem levelEvents_parBad (s : State) : (levelEvents s).parBad = s.parBad := rfl
@[simp] theorem levelEvents_now (s : State) : (levelEvents s).now = s.now := rfl
@[simp] theorem levelEvents_free (s : State) : (levelEvents s).free = s.free := rfl
@[simp] theorem levelEvents_stamp (s : State) : (levelEvents s).stamp = s.stamp := rfl
@[simp] theorem levelEvents_answer (s : State) : (levelEvents s).answer = s.answer := rfl
@[simp] theorem levelEvents_sent (s : State) : (levelEvents s).sent = s.sent := rfl
@[simp] theorem levelEvents_repUp (s : State) : (levelEvents s).repUp = s.repUp := rfl
@[simp] theorem levelEvents_flmOld (s : State) : (levelEvents s).flmOld = s.flmOld := rfl
@[simp] theorem levelEvents_pending (s : State) : (levelEvents s).pending = s.pending := rfl
@[simp] theorem levelEvents_pwr (s : State) : (levelEvents s).pwr = s.pwr := rfl
@[simp] theorem levelEvents_clk (s : State) : (levelEvents s).clk = s.clk := rfl
@[simp] theorem levelEvents_aon (s : State) : (levelEvents s).aon = s.aon := rfl

/-! ### settle -/

@[simp] theorem settle_pins (s : State) : (settle s).pins = s.pins := by
  simp [settle]
@[simp] theorem settle_rst (s : State) : (settle s).rst = s.rst := by
  simp [settle]
@[simp] theorem settle_opt (s : State) : (settle s).opt = s.opt := by
  simp [settle]
@[simp] theorem settle_sys (s : State) : (settle s).sys = s.sys := by
  simp [settle]
@[simp] theorem settle_dbg (s : State) : (settle s).dbg = s.dbg := by
  simp [settle]
@[simp] theorem settle_bkp (s : State) : (settle s).bkp = s.bkp := by
  simp [settle]
@[simp] theorem settle_upl (s : State) : (settle s).upl = s.upl := by
  simp [settle]
@[simp] theorem settle_hub (s : State) : (settle s).hub = s.hub := by
  simp [settle]
@[simp] theorem settle_ep0 (s : State) : (settle s).ep0 = s.ep0 := by
  simp [settle]
@[simp] theorem settle_beps (s : State) : (settle s).beps = s.beps := by
  simp [settle]
@[simp] theorem settle_ttb (s : State) : (settle s).ttb = s.ttb := by
  simp [settle]
@[simp] theorem settle_ports (s : State) : (settle s).ports = s.ports := by
  simp [settle]
@[simp] theorem settle_lastRise (s : State) : (settle s).lastRise = s.lastRise := by
  simp [settle]
@[simp] theorem settle_xlt (s : State) : (settle s).xlt = s.xlt := by
  simp [settle]
@[simp] theorem settle_jx (s : State) : (settle s).jx = s.jx := by
  simp [settle]
@[simp] theorem settle_mbr (s : State) : (settle s).mbr = s.mbr := by
  simp [settle]
@[simp] theorem settle_mvf (s : State) : (settle s).mvf = s.mvf := by
  simp [settle]
@[simp] theorem settle_flt (s : State) : (settle s).flt = s.flt := by
  simp [settle]
@[simp] theorem settle_mem (s : State) : (settle s).mem = s.mem := by
  simp [settle]
@[simp] theorem settle_parBad (s : State) : (settle s).parBad = s.parBad := by
  simp [settle]
@[simp] theorem settle_now (s : State) : (settle s).now = s.now := by
  simp [settle]
@[simp] theorem settle_free (s : State) : (settle s).free = s.free := by
  simp [settle]
@[simp] theorem settle_stamp (s : State) : (settle s).stamp = s.stamp := by
  simp [settle]
@[simp] theorem settle_answer (s : State) : (settle s).answer = s.answer := by
  simp [settle]
@[simp] theorem settle_sent (s : State) : (settle s).sent = s.sent := by
  simp [settle]
@[simp] theorem settle_repUp (s : State) : (settle s).repUp = s.repUp := by
  simp [settle]
@[simp] theorem settle_flmOld (s : State) : (settle s).flmOld = s.flmOld := by
  simp [settle]
@[simp] theorem settle_pending (s : State) : (settle s).pending = s.pending := by
  simp [settle]

@[simp] theorem settle_port (s : State) (n : Port) : (settle s).port n = s.port n := by simp [State.port]
@[simp] theorem settle_xport (s : State) (n : Port) : (settle s).xport n = s.xport n := by simp [State.xport]
@[simp] theorem settle_chan (s : State) (c : Chan) : (settle s).chan c = s.chan c := by simp [State.chan]
@[simp] theorem settle_inst (s : State) (i : Inst) : (settle s).inst i = s.inst i := by simp [State.inst]
@[simp] theorem settle_ep (s : State) (f : Func) : (settle s).ep f = s.ep f := by simp [State.ep]
@[simp] theorem settle_bep (s : State) (k : Fin 12) : (settle s).bep k = s.bep k := by simp [State.bep]

/-! ### The power fields -/

/-- The end of a round moves no power field but those of the round. -/
theorem endRound_pwr (s : State) (r : BitVec 4) (k : Byte) :
    ∃ ex ro en co ic rf rs rr rb, (endRound s r k).pwr =
      { s.pwr with exit := ex, round := ro, entry := en, consented := co, idleCnt := ic, refused := rf, refState := rs, refReason := rr,
                   refBlock := rb } := by
  unfold endRound releaseRound disarmLatch restoreCore vselBack
  dsimp only
  repeat' split
  all_goals exact ⟨_, _, _, _, _, _, _, _, _, rfl⟩

theorem settleRound_pwr (s : State) :
    ∃ ex ro en co ic rf rs rr rb, (settleRound s).pwr =
      { s.pwr with exit := ex, round := ro, entry := en, consented := co, idleCnt := ic, refused := rf, refState := rs, refReason := rr,
                   refBlock := rb } := by
  unfold settleRound
  split
  · exact ⟨_, _, _, _, _, _, _, _, _, rfl⟩
  all_goals
    split
    · exact endRound_pwr _ _ _
    · exact ⟨_, _, _, _, _, _, _, _, _, rfl⟩

/-- Without a round the votes change nothing. -/
theorem settleRound_none {s : State} (h : s.pwr.round = .none) : settleRound s = s := by
  unfold settleRound; rw [h]

theorem idleBreak_pwr (s : State) : ∃ ic, (idleBreak s).pwr = { s.pwr with idleCnt := ic } := by
  unfold idleBreak; split <;> exact ⟨_, rfl⟩

theorem settle_pwr (s : State) :
    ∃ ex ro en co ic rf rs rr rb, (settle s).pwr =
      { s.pwr with exit := ex, round := ro, entry := en, consented := co, idleCnt := ic, refused := rf, refState := rs, refReason := rr,
                   refBlock := rb } := by
  obtain ⟨ex, ro, en, co, ic, rf, rs, rr, rb, h⟩ := settleRound_pwr s
  obtain ⟨ic', h'⟩ := idleBreak_pwr (settleRound s)
  refine ⟨ex, ro, en, co, ic', rf, rs, rr, rb, ?_⟩
  simp [settle, h', h]

theorem settle_pwr_none {s : State} (h : s.pwr.round = .none) : ∃ ic, (settle s).pwr = { s.pwr with idleCnt := ic } := by
  obtain ⟨ic, h'⟩ := idleBreak_pwr s
  exact ⟨ic, by simp [settle, settleRound_none h, h']⟩

theorem settle_clk_none {s : State} (h : s.pwr.round = .none) : (settle s).clk = s.clk := by
  simp [settle, settleRound_none h]

theorem settle_aon_none {s : State} (h : s.pwr.round = .none) : (settle s).aon = s.aon := by
  simp [settle, settleRound_none h]

theorem endRound_clk (s : State) (r : BitVec 4) (k : Byte) :
    ∃ a v, (endRound s r k).clk = { s.clk with armed := a, vsteps := v } := by
  unfold endRound releaseRound disarmLatch restoreCore vselBack
  dsimp only
  repeat' split
  all_goals exact ⟨_, _, rfl⟩

theorem settle_clk (s : State) : ∃ a v, (settle s).clk = { s.clk with armed := a, vsteps := v } := by
  simp only [settle, levelEvents_clk, levelErrors_clk, idleBreak_clk]
  unfold settleRound
  split
  · exact ⟨_, _, rfl⟩
  all_goals
    split
    · exact endRound_clk _ _ _
    · exact ⟨_, _, rfl⟩

theorem endRound_aon (s : State) (r : BitVec 4) (k : Byte) :
    ∃ a l f e, (endRound s r k).aon = { s.aon with armed := a, latched := l, first := f, early := e } := by
  unfold endRound releaseRound disarmLatch restoreCore vselBack
  dsimp only
  repeat' split
  all_goals exact ⟨_, _, _, _, rfl⟩

theorem settle_aon (s : State) :
    ∃ a l f e, (settle s).aon = { s.aon with armed := a, latched := l, first := f, early := e } := by
  simp only [settle, levelEvents_aon, levelErrors_aon, idleBreak_aon]
  unfold settleRound
  split
  · exact ⟨_, _, _, _, rfl⟩
  all_goals
    split
    · exact endRound_aon _ _ _
    · exact ⟨_, _, _, _, rfl⟩

/-! ### Page headers -/

/-- A header with these events and errors, before the level events. -/
def hdrPlus (h : Hdr) (evts errs : Word) : Hdr :=
  { h with
    err := h.err ||| errs, errNew := h.errNew ||| errs, evtNew := h.evtNew ||| (h.evtEn &&& evts),
    evtPnd := h.evtPnd ||| (h.evtEn &&& evts) }

@[simp] theorem hdrPlus_zero (h : Hdr) : hdrPlus h 0#32 0#32 = h := by simp [hdrPlus]

theorem levelEvents_hdr (s : State) (b : Blk) :
    (levelEvents s).hdr b =
      { s.hdr b with evtPnd := (s.hdr b).evtPnd ||| ((s.hdr b).evtEn &&& (levelErr (s.hdr b) ||| levelBlock s b)) } := by
  simp [State.hdr, levelEvents, blkOf_idx]

theorem levelImg_hdr (s : State) (b : Blk) :
    (levelImg s).hdr b = hdrPlus (s.hdr b) 0 (if b = .opt then levelErrs s b else 0) := by
  unfold levelImg
  by_cases hf : s.opt.fallback = true
  · by_cases hb : b = .opt
    · subst hb; simp [hf, raise, hdrPlus, levelErrs]
    · simp [hf, hb, raise, State.hdr_modHdr_ne _ _ _ _ hb]
  · by_cases hb : b = .opt
    · subst hb; simp [hf, levelErrs]
    · simp [hf, hb]

theorem levelOvc_hdr (s : State) (n : Port) (b : Blk) :
    (levelOvc s n).hdr b = hdrPlus (s.hdr b) 0 (if b = .prt n then levelErrs s b else 0) := by
  unfold levelOvc
  by_cases hf : ovcLevel s n = true
  · by_cases hb : b = .prt n
    · subst hb; simp [hf, raise, hdrPlus, levelErrs]
    · simp [hf, hb, raise, State.hdr_modHdr_ne _ _ _ _ hb]
  · by_cases hb : b = .prt n
    · subst hb; simp [hf, levelErrs]
    · simp [hf, hb]

theorem levelErrs_congr {s t : State} (ho : t.opt.fallback = s.opt.fallback) (hp : t.ports = s.ports) (b : Blk) :
    levelErrs t b = levelErrs s b := by
  have hn : ∀ n, ovcLevel t n = ovcLevel s n := fun n => by unfold ovcLevel State.port; rw [hp]
  cases b <;> simp [levelErrs, ho, hn]

@[simp] theorem levelErrs_img (s : State) (b : Blk) : levelErrs (levelImg s) b = levelErrs s b :=
  levelErrs_congr (by simp) (by simp) b

@[simp] theorem levelErrs_ovc (s : State) (n : Port) (b : Blk) : levelErrs (levelOvc s n) b = levelErrs s b :=
  levelErrs_congr (by simp) (by simp) b

theorem hdrPlus_err (h : Hdr) (x y : Word) : hdrPlus (hdrPlus h 0 x) 0 y = hdrPlus h 0 (x ||| y) := by
  simp [hdrPlus, BitVec.or_assoc]

/-- OVC of several ports. -/
theorem levelOvcs_hdr (l : List Port) (s : State) (b : Blk) :
    (l.foldl levelOvc s).hdr b = hdrPlus (s.hdr b) 0 (if ∃ n ∈ l, b = .prt n then levelErrs s b else 0) := by
  induction l generalizing s with
  | nil => simp
  | cons m r ih =>
    rw [List.foldl_cons, ih, levelOvc_hdr, hdrPlus_err, levelErrs_ovc]
    by_cases h1 : b = .prt m
    · by_cases h2 : ∃ n ∈ r, b = .prt n
      · rw [if_pos h1, if_pos h2, if_pos ⟨m, by simp, h1⟩, BitVec.or_self]
      · rw [if_pos h1, if_neg h2, if_pos ⟨m, by simp, h1⟩]; simp
    · have e : (∃ n ∈ m :: r, b = .prt n) ↔ ∃ n ∈ r, b = .prt n := by simp [h1]
      simp only [h1, if_false, e]; simp

theorem levelErrors_hdr (s : State) (b : Blk) : (levelErrors s).hdr b = hdrPlus (s.hdr b) 0 (levelErrs s b) := by
  unfold levelErrors
  rw [levelOvcs_hdr, levelImg_hdr, hdrPlus_err, levelErrs_img]
  cases b with
  | prt n =>
    have h : n ∈ allPorts := by revert n; decide
    simp [h]
  | opt => simp
  | sys | pin | clk | rst | bkp | pwr | flt | upl | hub | ttb | xlt | jx _ | mbr | mvf _ | dbg => simp [levelErrs]

@[simp] theorem levelBlock_settle (s : State) (b : Blk) : levelBlock (settle s) b = levelBlock s b := by
  cases b <;> simp [levelBlock]

@[simp] theorem levelErrs_settle (s : State) (b : Blk) : levelErrs (settle s) b = levelErrs s b :=
  levelErrs_congr (by simp) (by simp) b

theorem levelBlock_congr {s t : State} (h : t.mvf = s.mvf) (b : Blk) : levelBlock t b = levelBlock s b := by
  have hi : ∀ i, t.inst i = s.inst i := fun i => by simp [State.inst, h]
  cases b <;> simp [levelBlock, hi]

theorem endRound_hdr (s : State) (r : BitVec 4) (k : Byte) (b : Blk) :
    (endRound s r k).hdr b = if b = .pwr then hdrPlus (s.hdr b) (oneBit 3) 0 else s.hdr b := by
  have key : ∀ u : State, u.hdrs = (evt s .pwr 3).hdrs →
      u.hdr b = if b = .pwr then hdrPlus (s.hdr b) (oneBit 3) 0 else s.hdr b := by
    intro u hu
    have : u.hdr b = (evt s .pwr 3).hdr b := by simp [State.hdr, hu]
    rw [this]
    by_cases hb : b = .pwr
    · subst hb; simp [evt, hdrPlus]
    · simp [evt, hb, State.hdr_modHdr_ne _ _ _ _ hb]
  apply key
  unfold endRound; dsimp only; split <;> simp only [releaseRound_hdrs, restoreCore_hdrs] <;> rfl

theorem settleRound_hdr (s : State) (b : Blk) :
    (settleRound s).hdr b = s.hdr b ∨
      (b = .pwr ∧ s.pwr.round ≠ .none ∧ (settleRound s).hdr b = hdrPlus (s.hdr b) (oneBit 3) 0) := by
  unfold settleRound
  split
  · exact Or.inl rfl
  all_goals
    rename_i hr
    split
    · rw [endRound_hdr]
      by_cases hb : b = .pwr
      · exact Or.inr ⟨hb, by simp [hr], by simp [hb]⟩
      · exact Or.inl (by simp [hb])
    · exact Or.inl rfl

theorem settle_hdr_from {s : State} {b : Blk} {h : Hdr} (hr : (settleRound s).hdr b = h) :
    (settle s).hdr b =
      { h with
        err := h.err ||| levelErrs s b, errNew := h.errNew ||| levelErrs s b,
        evtPnd := h.evtPnd ||| (h.evtEn &&& (levelErr { h with err := h.err ||| levelErrs s b } ||| levelBlock s b)) } := by
  have h1 : (idleBreak (settleRound s)).hdr b = h := by simp [State.hdr, ← hr]
  have h2 : levelErrs (idleBreak (settleRound s)) b = levelErrs s b := levelErrs_congr (by simp) (by simp) b
  have h3 : levelBlock (levelErrors (idleBreak (settleRound s))) b = levelBlock s b :=
    levelBlock_congr (by simp) b
  simp only [settle, levelEvents_hdr, levelErrors_hdr, h1, h2, h3, hdrPlus]
  simp [levelErr]

/-- Two runs of events into the same pending bits. -/
theorem or_and_or (e a b : Word) : (e &&& a) ||| (e &&& b) = e &&& (a ||| b) := by
  apply BitVec.eq_of_getLsbD_eq
  intro i _
  simp [Bool.and_or_distrib_left]

/-- A header that took these events and errors ends the command as `hdrAfter` says. -/
theorem settle_hdrAfter {s u : State} {b : Blk} {evts errs : Word}
    (h : (settleRound u).hdr b = hdrPlus (s.hdr b) evts errs) :
    (settle u).hdr b = hdrAfter s (settle u) b evts (errs ||| levelErrs (settle u) b) := by
  have hlb : levelBlock (settle u) b = levelBlock u b := levelBlock_settle u b
  have key := settle_hdr_from h
  rw [key]
  simp only [hdrAfter, evtRaw, hlb, key, levelErrs_settle, hdrPlus, or_and_or, BitVec.or_assoc, levelErr]

/-- Page headers at the end of a command whose effect gave the page these events and errors. -/
theorem settle_took {s u : State} {b : Blk} {evts errs : Word} (hr : u.pwr.round = s.pwr.round)
    (h : u.hdr b = hdrPlus (s.hdr b) evts errs) : HdrTook s (settle u) b evts errs := by
  rcases settleRound_hdr u b with h1 | ⟨hb, hn, h1⟩
  · exact Or.inl (settle_hdrAfter (h1.trans h))
  · refine Or.inr ⟨hb, hr ▸ hn, ?_⟩
    apply settle_hdrAfter
    rw [h1, h]
    have hz : errs ||| 0 = errs := BitVec.or_zero
    simp only [hdrPlus, or_and_or, BitVec.or_assoc, hz]

/-- A part that the effect of a command leaves as it is stays as the frame says through the command's end. -/
theorem settle_part {s u : State} {p : Part} (hr : u.pwr.round = s.pwr.round) (h : p.same s u)
    (hp : p = .pwr → u.pwr = s.pwr) (hc : p = .clk → u.clk = s.clk) (ha : p = .aon → u.aon = s.aon) :
    p.same s (settle u) := by
  cases p
  case clk =>
    obtain ⟨a, v, hs⟩ := settle_clk u
    have hc := hc rfl
    refine ⟨by rw [hs, hc], fun hn => ?_⟩
    rw [settle_clk_none (hr.trans hn), hc]
  case pwr =>
    obtain ⟨ex, ro, en, co, ic, rf, rs, rr, rb, hs⟩ := settle_pwr u
    have hp := hp rfl
    refine ⟨by rw [hs, hp], fun hn => ?_⟩
    obtain ⟨ic', hs'⟩ := settle_pwr_none (hr.trans hn)
    rw [hs', hp]
  case aon =>
    obtain ⟨a, l, f, e, hs⟩ := settle_aon u
    have ha := ha rfl
    refine ⟨by rw [hs, ha], fun hn => ?_⟩
    rw [settle_aon_none (hr.trans hn), ha]
  all_goals simpa only [Part.same, settle_pins, settle_rst, settle_opt, settle_sys, settle_dbg, settle_bkp, settle_upl, settle_hub,
    settle_ep0, settle_beps, settle_ttb, settle_ports, settle_lastRise, settle_xlt, settle_jx, settle_mbr, settle_mvf, settle_flt,
    settle_mem, settle_parBad, settle_flmOld, settle_now, settle_free, settle_stamp, settle_answer, settle_repUp, settle_sent]
    using h

/-- The frame of a command whose effect `u` leaves every other part and page header exactly as it is. -/
theorem frame_settle {ps : List Part} {bs : List Blk} {s u : State} (hq : u.pending = s.pending)
    (hr : u.pwr.round = s.pwr.round) (hps : ∀ p, p ∉ ps → p.exact s u) (hbs : ∀ b, b ∉ bs → u.hdr b = s.hdr b) : Frame ps bs s (settle u) := by
  refine ⟨by simp [hq], fun p hp => ?_, fun b hb => ?_⟩
  · have he := hps p hp
    exact settle_part hr (Part.exact_same he) (fun h => by subst h; exact he) (fun h => by subst h; exact he)
      (fun h => by subst h; exact he)
  · exact settle_took hr (by simp [hbs b hb])

end Sys2Proof.Machine
end

