-- ==== Sys2Proof/Laws/Commands.lean ====
section
/-! SUPPORT. How each kind of command completes, and the results of an effect on one port, channel or instance. -/

namespace Sys2Proof

open Machine

/-! ### The kinds of commands (Machine/Flags.lean, Ports.lean, Reset.lean, Clock.lean) -/

theorem done_eq (s : State) : done s = .next (settle s) := rfl

theorem coreCmd_eq {s : State} (h : coreRuns s = true) (f : State → State) : coreCmd f s = .next (settle (f s)) := by
  simp [coreCmd, h, done]

theorem pageCmd_eq {s : State} {b : Blk} (h : Live s b) (f : State → State) : pageCmd b f s = .next (settle (f s)) := by
  simp [pageCmd, coreCmd, h.1, h.2, done]

theorem portEvent_eq {s : State} {n : Port} (h : Live s (.prt n)) (f : State → State) :
    portEvent n f s = .next (settle (f s)) := by
  simp [portEvent, coreCmd, h.1, h.2, done]

theorem groupCmd_eq {s : State} {k : Nat} (h : groupRuns s k = true) (f : State → State) :
    groupCmd k f s = .next (settle (f s)) := by
  simp [groupCmd, h, done]

/-- While the core runs, the blocks of every release group run. -/
theorem groupRuns_of_core {s : State} (h : coreRuns s = true) (k : Nat) : groupRuns s k = true := by
  simp only [coreRuns, Bool.and_eq_true, beq_iff_eq, Bool.not_eq_true'] at h
  simp [groupRuns, h.1.1, h.1.2, h.2]

/-- While the core runs, the upstream port answers. -/
theorem inService_of_core {s : State} (h : coreRuns s = true) : inService s = true := by
  simp only [coreRuns, Bool.and_eq_true, beq_iff_eq, Bool.not_eq_true'] at h
  simp [inService, h.1.1, h.1.2, h.2]

/-! ### Results -/

theorem gives_of_eq {c : Instr} {s u : State} {Q : State → Prop} (h : exec c s = .next (settle u)) (q : Q (settle u)) :
    Gives c s Q := ⟨_, h, q⟩

theorem hdr_evt (s : State) (b : Blk) (i : Nat) : (evt s b i).hdr b = hdrPlus (s.hdr b) (oneBit i) 0 := by
  simp [evt, hdrPlus]

theorem hdr_evt_ne (s : State) {a b : Blk} (i : Nat) (h : a ≠ b) : (evt s b i).hdr a = s.hdr a := by
  simp [evt, State.hdr_modHdr_ne _ _ _ _ h]

theorem hdr_raise (s : State) (b : Blk) (i : Nat) : (raise s b i).hdr b = hdrPlus (s.hdr b) 0 (oneBit i) := by
  simp [raise, hdrPlus]

theorem hdr_raise_ne (s : State) {a b : Blk} (i : Nat) (h : a ≠ b) : (raise s b i).hdr a = s.hdr a := by
  simp [raise, State.hdr_modHdr_ne _ _ _ _ h]

/-- An effect that gives one page these events and errors, and leaves every other page and the parts outside `ps`. -/
theorem took_frame {s u : State} {b : Blk} {e x : Word} {ps : List Part} (hh : u.hdr b = hdrPlus (s.hdr b) e x)
    (hb : ∀ c, c ≠ b → u.hdr c = s.hdr c) (hq : u.pending = s.pending) (hr : u.pwr.round = s.pwr.round) (hps : ∀ p, p ∉ ps → p.exact s u) :
    HdrTook s (settle u) b e x ∧ Frame ps [b] s (settle u) :=
  ⟨settle_took hr hh, frame_settle hq hr hps fun c hc => hb c (by simpa using hc)⟩

/-- The same for an effect on one port. -/
theorem port_result {s u : State} {n : Port} {p : PortSt} {e x : Word} {ps : List Part} (hp : u.port n = p)
    (hm : ∀ m, m ≠ n → u.port m = s.port m) (hh : u.hdr (.prt n) = hdrPlus (s.hdr (.prt n)) e x)
    (hb : ∀ b, b ≠ .prt n → u.hdr b = s.hdr b) (hq : u.pending = s.pending) (hr : u.pwr.round = s.pwr.round) (hps : ∀ p, p ∉ ps → p.exact s u) :
    PortGets s (settle u) n p e x ∧ Frame ps [.prt n] s (settle u) :=
  have h := took_frame hh hb hq hr hps
  ⟨⟨by simp [hp], fun m hn => by simp [hm m hn], h.1⟩, h.2⟩

/-- The same for an effect on one channel. -/
theorem chan_result {s u : State} {c : Chan} {j : Jx} {e x : Word} {ps : List Part} (hp : u.chan c = j)
    (hm : ∀ d, d ≠ c → u.chan d = s.chan d) (hh : u.hdr (.jx c) = hdrPlus (s.hdr (.jx c)) e x)
    (hb : ∀ b, b ≠ .jx c → u.hdr b = s.hdr b) (hq : u.pending = s.pending) (hr : u.pwr.round = s.pwr.round) (hps : ∀ p, p ∉ ps → p.exact s u) :
    ChanGets s (settle u) c j e x ∧ Frame ps [.jx c] s (settle u) :=
  have h := took_frame hh hb hq hr hps
  ⟨⟨by simp [hp], fun m hn => by simp [hm m hn], h.1⟩, h.2⟩

/-- The same for an effect on one instance. -/
theorem inst_result {s u : State} {i : Inst} {m : Mvf} {e x : Word} {ps : List Part} (hp : u.inst i = m)
    (hm : ∀ j, j ≠ i → u.inst j = s.inst j) (hh : u.hdr (.mvf i) = hdrPlus (s.hdr (.mvf i)) e x)
    (hb : ∀ b, b ≠ .mvf i → u.hdr b = s.hdr b) (hq : u.pending = s.pending) (hr : u.pwr.round = s.pwr.round) (hps : ∀ p, p ∉ ps → p.exact s u) :
    InstGets s (settle u) i m e x ∧ Frame ps [.mvf i] s (settle u) :=
  have h := took_frame hh hb hq hr hps
  ⟨⟨by simp [hp], fun j hn => by simp [hm j hn], h.1⟩, h.2⟩

/-- An effect that touches no page header. -/
theorem plain_result {s u : State} {ps : List Part} (hb : ∀ c, u.hdr c = s.hdr c) (hq : u.pending = s.pending)
    (hr : u.pwr.round = s.pwr.round) (hps : ∀ p, p ∉ ps → p.exact s u) :
    Frame ps [] s (settle u) := frame_settle hq hr hps fun c _ => hb c

/-- No effect at all. -/
theorem nothing_result (s : State) : Frame [] [] s (settle s) :=
  plain_result (fun _ => rfl) rfl rfl fun p _ => by cases p <;> rfl

end Sys2Proof
end

