-- ==== Sys2Proof/Laws/Memory.lean ====
section
/-! SUPPORT. The memories (05 R131, 13 R335): every operation keeps the canonical form, a read after a write gives what was
written, and a write leaves every other byte alone. -/

namespace Sys2Proof.Machine

/-! ### The canonical form -/

theorem memRising_lower {lo lo' : Nat} {m : List Host.Cell} (h : memRising lo m = true) (hl : lo' ≤ lo) :
    memRising lo' m = true := by
  cases m with
  | nil => rfl
  | cons c r =>
    obtain ⟨a, v⟩ := c
    simp only [memRising, Bool.and_eq_true, decide_eq_true_eq] at h ⊢
    exact ⟨⟨by omega, h.1.2⟩, h.2⟩

/-- A byte below every listed address reads as the default. -/
theorem memGet_below {lo x : Nat} {m : List Host.Cell} (h : memRising lo m = true) (hx : x < lo) :
    memGet m x = memDefault := by
  cases m with
  | nil => rfl
  | cons c r =>
    obtain ⟨a, v⟩ := c
    simp only [memRising, Bool.and_eq_true, decide_eq_true_eq] at h
    have h1 : x ≠ a := by omega
    have h2 : x < a := by omega
    simp [memGet, h1, h2]

theorem memSet_rising {m : List Host.Cell} {lo x : Nat} {v : Byte} (h : memRising lo m = true) (hx : lo ≤ x) :
    memRising lo (memSet m x v) = true := by
  induction m generalizing lo with
  | nil => by_cases hv : v = memDefault <;> simp [memSet, memRising, hv, hx]
  | cons c r ih =>
    obtain ⟨a, w⟩ := c
    simp only [memRising, Bool.and_eq_true, decide_eq_true_eq] at h
    obtain ⟨⟨h1, h2⟩, h3⟩ := h
    by_cases h4 : x < a
    · by_cases hv : v = memDefault
      · simp [memSet, memRising, h4, hv, h1, h2, h3]
      · have h5 : x + 1 ≤ a := by omega
        simp [memSet, memRising, h4, hv, h2, h3, hx, h5]
    · by_cases h5 : x = a
      · subst h5
        by_cases hv : v = memDefault
        · simpa [memSet, hv] using memRising_lower h3 (by omega)
        · simp [memSet, memRising, hv, h1, h3]
      · simp [memSet, memRising, h4, h5, h1, h2, ih h3 (by omega)]

/-- A write of a byte keeps the canonical form. -/
theorem memSet_wf {m : List Host.Cell} (x : Nat) (v : Byte) (h : Memory.wf m = true) : Memory.wf (memSet m x v) = true :=
  memSet_rising h (Nat.zero_le x)

/-- A write of a word keeps the canonical form. -/
theorem memSetWord_wf {m : List Host.Cell} (a : Nat) (w : Word) (h : Memory.wf m = true) :
    Memory.wf (memSetWord m a w) = true :=
  memSet_wf _ _ (memSet_wf _ _ (memSet_wf _ _ (memSet_wf _ _ h)))

theorem noteFlm_mem (s : State) (a : Nat) : (noteFlm s a).mem = s.mem := by
  unfold noteFlm; split <;> rfl

theorem memStore_mem (s : State) (a : Nat) (w : Word) : (memStore s a w).mem = memSetWord s.mem a w := by
  simp [memStore, noteFlm_mem]

theorem memStore_wf {s : State} (a : Nat) (w : Word) (h : Memory.wf s.mem = true) : Memory.wf (memStore s a w).mem = true := by
  rw [memStore_mem]; exact memSetWord_wf a w h

theorem memFilter_rising {m : List Host.Cell} {lo : Nat} (p : Host.Cell → Bool) (h : memRising lo m = true) :
    memRising lo (m.filter p) = true := by
  induction m generalizing lo with
  | nil => rfl
  | cons c r ih =>
    obtain ⟨a, v⟩ := c
    simp only [memRising, Bool.and_eq_true, decide_eq_true_eq] at h
    by_cases hp : p (a, v) = true
    · simp [List.filter, hp, memRising, h.1.1, h.1.2, ih h.2]
    · simpa [List.filter, hp] using memRising_lower (ih h.2) (by omega)

/-- Zeroing a range keeps the canonical form. -/
theorem memZero_wf {m : List Host.Cell} (lo hi : Nat) (h : Memory.wf m = true) : Memory.wf (memZero m lo hi) = true :=
  memFilter_rising _ h

/-! ### Reads after writes -/

theorem memGet_memSet_of_rising {m : List Host.Cell} {lo x y : Nat} {v : Byte} (h : memRising lo m = true) :
    memGet (memSet m x v) y = if y = x then v else memGet m y := by
  induction m generalizing lo with
  | nil =>
    by_cases hv : v = memDefault
    · by_cases hy : y = x <;> simp [memSet, memGet, hv, hy]
    · by_cases hy : y = x <;> simp [memSet, memGet, hv, hy]
  | cons c r ih =>
    obtain ⟨a, w⟩ := c
    simp only [memRising, Bool.and_eq_true, decide_eq_true_eq] at h
    obtain ⟨⟨h1, h2⟩, h3⟩ := h
    by_cases h4 : x < a
    · by_cases hv : v = memDefault
      · by_cases hy : y = x
        · have h5 : y ≠ a := by omega
          have h6 : y < a := by omega
          simp [memSet, memGet, h4, hv, hy, (show x ≠ a by omega)]
        · simp [memSet, h4, hv, hy]
      · by_cases hy : y = x
        · simp [memSet, memGet, h4, hv, hy]
        · by_cases h5 : y < x
          · simp [memSet, memGet, h4, hv, hy, h5, (show y ≠ a by omega), (show y < a by omega)]
          · simp [memSet, memGet, h4, hv, hy, h5]
    · by_cases h5 : x = a
      · subst h5
        by_cases hv : v = memDefault
        · by_cases hy : y = x
          · subst hy
            simp [memSet, hv, memGet_below h3 (Nat.lt_succ_self y)]
          · by_cases h6 : y < x
            · simp [memSet, memGet, hv, hy, h6, memGet_below h3 (show y < x + 1 by omega)]
            · simp [memSet, memGet, hv, hy, h6]
        · by_cases hy : y = x <;> simp [memSet, memGet, hv, hy]
      · by_cases hy : y = x
        · subst hy
          simp [memSet, memGet, h4, h5, ih h3]
        · by_cases h6 : y = a
          · simp [memSet, memGet, h4, h5, h6, (show ¬ a = x by omega)]
          · by_cases h7 : y < a
            · simp [memSet, memGet, h4, h5, hy, h6, h7]
            · simp [memSet, memGet, h4, h5, hy, h6, h7, ih h3]

/-- What one byte reads after a write of one byte. -/
theorem memGet_memSet {m : List Host.Cell} (x y : Nat) (v : Byte) (h : Memory.wf m = true) :
    memGet (memSet m x v) y = if y = x then v else memGet m y := memGet_memSet_of_rising h

/-- A write of a word leaves every byte outside it alone. -/
theorem memGet_memSetWord_ne {m : List Host.Cell} {a y : Nat} (w : Word) (h : Memory.wf m = true) (hy : y < a ∨ a + 4 ≤ y) :
    memGet (memSetWord m a w) y = memGet m y := by
  have w1 := memSet_wf a (byteOf w 0) h
  have w2 := memSet_wf (a + 1) (byteOf w 1) w1
  have w3 := memSet_wf (a + 2) (byteOf w 2) w2
  simp only [memSetWord]
  rw [memGet_memSet _ _ _ w3, memGet_memSet _ _ _ w2, memGet_memSet _ _ _ w1, memGet_memSet _ _ _ h, if_neg (by omega),
    if_neg (by omega), if_neg (by omega), if_neg (by omega)]

theorem wordOf_byteOf (w : Word) : wordOf (byteOf w 0) (byteOf w 1) (byteOf w 2) (byteOf w 3) = w := by
  apply BitVec.eq_of_getLsbD_eq
  intro i hi
  simp only [wordOf, byteOf, BitVec.getLsbD_append, BitVec.getLsbD_ofNat, Nat.testBit_shiftRight, BitVec.testBit_toNat]
  by_cases h0 : i < 8
  · simp [h0]
  · by_cases h1 : i < 16
    · have e1 : i - 8 < 8 := by omega
      simp [h0, e1, (show 8 + (i - 8) = i by omega)]
    · by_cases h2 : i < 24
      · have e1 : ¬ i - 8 < 8 := by omega
        have e2 : i - 8 - 8 < 8 := by omega
        simp [h0, e1, e2, (show 16 + (i - 8 - 8) = i by omega)]
      · have e1 : ¬ i - 8 < 8 := by omega
        have e2 : ¬ i - 8 - 8 < 8 := by omega
        have e3 : i - 8 - 8 - 8 < 8 := by omega
        simp [h0, e1, e2, e3, (show 24 + (i - 8 - 8 - 8) = i by omega)]

/-- A word reads back as it was written. -/
theorem memWord_memSetWord {m : List Host.Cell} (a : Nat) (w : Word) (h : Memory.wf m = true) :
    memWord (memSetWord m a w) a = w := by
  have w1 := memSet_wf a (byteOf w 0) h
  have w2 := memSet_wf (a + 1) (byteOf w 1) w1
  have w3 := memSet_wf (a + 2) (byteOf w 2) w2
  simp only [memWord, memSetWord, memGet_memSet _ _ _ w3, memGet_memSet _ _ _ w2, memGet_memSet _ _ _ w1,
    memGet_memSet _ _ _ h]
  have n1 (k l : Nat) (hk : k ≠ l) : (a + k = a + l) = False := by simp [hk]
  simp only [n1 1 3 (by omega), n1 1 2 (by omega), n1 2 3 (by omega), if_false, if_true,
    (show (a = a + 3) = False by simp), (show (a = a + 2) = False by simp), (show (a = a + 1) = False by simp)]
  exact wordOf_byteOf w

end Sys2Proof.Machine
end

