-- ==== Sys2Proof/Laws/Ops.lean ====
section
/-! SUPPORT. What the shared operations of the families can do: the parts of the state outside those named, the page headers
outside those named, and the queue are as they were. The provers cite these instead of unfolding the operations. -/

namespace Sys2Proof.Machine

open Sys2Proof

/-- An operation changes only the parts `ps` and the headers of the blocks `bs`. -/
def OnlyOn (ps : List Part) (bs : List Blk) (s t : State) : Prop :=
  t.pending = s.pending ∧ (∀ p, p ∉ ps → p.exact s t) ∧ ∀ b, b ∉ bs → t.hdr b = s.hdr b

theorem OnlyOn.refl (ps : List Part) (bs : List Blk) (s : State) : OnlyOn ps bs s s :=
  ⟨rfl, fun p _ => by cases p <;> rfl, fun _ _ => rfl⟩

theorem Part.exact_trans {p : Part} {s t u : State} (h : p.exact s t) (k : p.exact t u) : p.exact s u := by
  cases p <;> exact Eq.trans k h

/-- Operations one after another change what either changes. -/
theorem OnlyOn.trans {ps ps' : List Part} {bs bs' : List Blk} {s t u : State} (h : OnlyOn ps bs s t)
    (k : OnlyOn ps' bs' t u) : OnlyOn (ps ++ ps') (bs ++ bs') s u := by
  refine ⟨k.1.trans h.1, fun p hp => ?_, fun b hb => ?_⟩
  · simp only [List.mem_append, not_or] at hp
    exact Part.exact_trans (h.2.1 p hp.1) (k.2.1 p hp.2)
  · simp only [List.mem_append, not_or] at hb
    exact (k.2.2 b hb.2).trans (h.2.2 b hb.1)

/-- A larger list of parts and headers still holds. -/
theorem OnlyOn.mono {ps ps' : List Part} {bs bs' : List Blk} {s t : State} (h : OnlyOn ps bs s t)
    (hp : ∀ p ∈ ps, p ∈ ps') (hb : ∀ b ∈ bs, b ∈ bs') : OnlyOn ps' bs' s t :=
  ⟨h.1, fun p k => h.2.1 p fun m => k (hp p m), fun b k => h.2.2 b fun m => k (hb b m)⟩

/-- Operations of one kind one after another. -/
theorem OnlyOn.fold {α : Type} {ps : List Part} {bs : List Blk} (f : State → α → State) (l : List α)
    (h : ∀ s x, OnlyOn ps bs s (f s x)) (s : State) : OnlyOn ps bs s (l.foldl f s) := by
  induction l generalizing s with
  | nil => exact OnlyOn.refl ps bs s
  | cons x r ih =>
    exact OnlyOn.mono ((h s x).trans (ih (f s x))) (by simp) (by simp)

theorem evt_only (s : State) (b : Blk) (i : Nat) : OnlyOn [] [b] s (evt s b i) := by
  refine ⟨by simp, fun p _ => by cases p <;> simp [Part.exact], fun c hc => ?_⟩
  simp only [List.mem_singleton] at hc
  simp [evt, State.hdr_modHdr_ne _ _ _ _ hc]

theorem raise_only (s : State) (b : Blk) (i : Nat) : OnlyOn [] [b] s (raise s b i) := by
  refine ⟨by simp, fun p _ => by cases p <;> simp [Part.exact], fun c hc => ?_⟩
  simp only [List.mem_singleton] at hc
  simp [raise, State.hdr_modHdr_ne _ _ _ _ hc]

theorem setInst_only (s : State) (i : Inst) (m : Mvf) : OnlyOn [.mvf] [] s (s.setInst i m) :=
  ⟨by simp, fun p hp => by cases p <;> simp_all [Part.exact], fun _ _ => by simp⟩

theorem modInst_only (s : State) (i : Inst) (f : Mvf → Mvf) : OnlyOn [.mvf] [] s (s.modInst i f) :=
  setInst_only s i _

theorem modChan_only (s : State) (c : Chan) (f : Jx → Jx) : OnlyOn [.jx] [] s (s.modChan c f) :=
  ⟨by simp, fun p hp => by cases p <;> simp_all [Part.exact], fun _ _ => by simp⟩

theorem modPort_only (s : State) (n : Port) (f : PortSt → PortSt) : OnlyOn [.ports] [] s (s.modPort n f) :=
  ⟨by simp, fun p hp => by cases p <;> simp_all [Part.exact], fun _ _ => by simp⟩

theorem nextStamp_only (s : State) : OnlyOn [.stamp] [] s (nextStamp s) :=
  ⟨rfl, fun p hp => by cases p <;> first | rfl | simp_all, fun _ _ => rfl⟩

theorem sramUnc_only (s : State) : OnlyOn [.dbg, .free] [] s (sramUnc s) :=
  ⟨rfl, fun p hp => by cases p <;> first | rfl | simp_all, fun _ _ => rfl⟩

/-- Replacing the MBR registers touches them alone. -/
theorem mbr_only (s : State) (m : Mbr) : OnlyOn [.mbr] [] s { s with mbr := m } :=
  ⟨rfl, fun p hp => by cases p <;> first | rfl | simp_all, fun _ _ => rfl⟩

theorem dbg_only (s : State) (d : Dbg) : OnlyOn [.dbg] [] s { s with dbg := d } :=
  ⟨rfl, fun p hp => by cases p <;> first | rfl | simp_all, fun _ _ => rfl⟩

/-- A Sluice pin's rule moves the pin, its count and FLOWx (13 R362). -/
theorem flowEval_only (s : State) (c : Chan) : OnlyOn [.mbr] [.mbr] s (flowEval s c) := by
  simp only [flowEval]
  split
  · exact ((mbr_only s _).trans ((mbr_only _ _).trans (evt_only _ .mbr _))).mono (by simp) (by simp)
  · exact (mbr_only s _).mono (by simp) (by simp)

/-- What follows a change of the pool (13 R362). -/
theorem poolChanged_only (s : State) : OnlyOn [.mbr, .dbg] [.mbr] s (poolChanged s) :=
  (((flowEval_only s 0).trans (flowEval_only _ 1)).trans (dbg_only _ _)).mono (by simp) (by simp)

/-- A frame lost for an instance (13 R361). -/
theorem rxLose_only (s : State) (i : Inst) : OnlyOn [.mvf, .mbr] [.mvf i] s (rxLose s i) :=
  ((modInst_only s i _).trans ((mbr_only _ _).trans (evt_only _ (.mvf i) 10))).mono (by simp) (by simp)

/-- A refused frame or command of an instance (12 R307, R310). -/
theorem txRefuse_only (s : State) (i : Inst) (bulk : Bool) (r : BitVec 4) (g : Byte) :
    OnlyOn [.mvf] [.mvf i] s (txRefuse s i bulk r g) :=
  ((modInst_only s i _).trans (evt_only _ (.mvf i) 1)).mono (by simp) (by simp)

/-- The end of a transaction: its own state and the Timetable's counts (07 R191). -/
theorem txnEnd_only (s : State) : OnlyOn [.upl, .ttb] [] s (txnEnd s) := by
  refine ⟨?_, fun p hp => ?_, fun b _ => ?_⟩
  · simp only [txnEnd]; repeat' split
    all_goals rfl
  · cases p <;> first | (simp_all; done) | (simp only [Part.exact, txnEnd]; repeat' split) <;> rfl
  · simp only [txnEnd]; repeat' split
    all_goals rfl

/-- A corrected memory error counts in the debug page, and nothing else (16 R405). -/
theorem sramCorr_only (s : State) (k : Nat) : OnlyOn [.dbg] [] s (sramCorr s k) := dbg_only s _

/-- No answer touches the answer alone. -/
theorem silent_only (s : State) : OnlyOn [.answer] [] s (silent s) :=
  ⟨rfl, fun p hp => by cases p <;> first | rfl | simp_all, fun _ _ => rfl⟩

/-- What a packet puts on the DDn pins (07 R174, R175). -/
theorem sendDown_only (s : State) (f : Port → Sent) : OnlyOn [.sent] [] s (sendDown s f) :=
  ⟨rfl, fun p hp => by cases p <;> first | rfl | simp_all, fun _ _ => rfl⟩

theorem sendOwn_only (s : State) (n : Port) (p : RawPkt) : OnlyOn [.sent] [] s (sendOwn s n p) :=
  ⟨rfl, fun p hp => by cases p <;> first | rfl | simp_all, fun _ _ => rfl⟩

/-- Sampling the pads moves the sampled levels alone (03 R76). -/
theorem samplePads_only (s : State) : OnlyOn [.pins] [] s (samplePads s) :=
  ⟨rfl, fun p hp => by cases p <;> first | rfl | simp_all, fun _ _ => rfl⟩

/-- The protocol stall of a transfer (07 Table 7.9). -/
theorem stall_only (s : State) (f : Func) : OnlyOn [.ep0] [] s (stall s f) :=
  ⟨by simp [stall], fun p hp => by cases p <;> simp_all [Part.exact, stall], fun _ _ => by simp [stall]⟩

/-- The window of write tags is the only state that recording and marking a request touch (08 R209). -/
theorem tagPush_only (s : State) (r : RegReq) (res : TagResult) : OnlyOn [.hub] [] s (tagPush s r res) := by
  simp only [tagPush]
  split
  · exact OnlyOn.refl _ _ s
  · exact ⟨rfl, fun p hp => by cases p <;> first | rfl | simp_all, fun _ _ => rfl⟩

theorem tagMark_only (s : State) (r : RegReq) (res : TagResult) (n : Nat) : OnlyOn [.hub] [] s (tagMark s r res n) := by
  simp only [tagMark]
  split
  · exact OnlyOn.refl _ _ s
  · exact ⟨rfl, fun p hp => by cases p <;> first | rfl | simp_all, fun _ _ => rfl⟩

/-- The check of a REG_WRITE that passes (08 Table 8.10). -/
theorem regWriteOpen_only (s : State) (r : RegReq) : OnlyOn [.hub, .ep0] [] s (regWriteOpen s r) := by
  have h : OnlyOn [.ep0] [] (tagPush s r .incomplete) (regWriteOpen s r) :=
    ⟨rfl, fun p hp => by cases p <;> first | (simp_all; done) | rfl, fun _ _ => rfl⟩
  exact ((tagPush_only s r .incomplete).trans h).mono (by simp) (by simp)

end Sys2Proof.Machine
end

