-- ==== Sys2Proof/Tests/Slice0.lean ====
section
/-! SUPPORT. The author's tests: an ill-formed term for each check of WellFormed, worked examples of the
spec, and for each statement with hypotheses concrete states that meet the hypotheses of each of its clauses. -/

namespace Sys2Proof.Tests

open Sys2Proof Sys2Proof.Machine

-- one thread: the witnesses wait for each other, and waiting threads only take memory
set_option Elab.async false

/-! ### Small states -/

/-- The state after reset with EN at 1 on every page. -/
def live : State := { State.reset with hdrs := State.reset.hdrs.mapIdx fun _ h => { h with en := true } }

/-- The header of a page changed. -/
def withHdr (b : Blk) (f : Hdr → Hdr) : State := live.modHdr b f

/-- Port 7 in a state, with the rest of its registers changed. -/
def withPort (st : PState) (f : PortSt → PortSt := id) : State := live.modPort 7 fun p => f { p with state := st }

/-- Both functions configured: the hub at address 1, the bridge at address 2, address 3 routed to port 7. -/
def linked : State :=
  { live with
    hub := { live.hub with
      addr := 1, conf := true, brPres := true, brConf := true, brAddr := 2,
      routes := ((live.hub.routes.set 1 8).set 2 8).set 3 7 },
    upl := { live.upl with phase := .up, linkup := true, connect := false } }

/-- The hub function's EP0 changed. -/
def withEp0 (f : Ep0 → Ep0) : State := linked.modEp .hub f

/-- Channel B joined to its bus, changed. -/
def withChan (f : Jx → Jx) : State := linked.modChan 1 fun j => f { j with bus := .idle, firstRcv := false }

/-- Instance 3 changed, with both channels joined to their buses. -/
def withInst (f : Mvf → Mvf) : State := ((withChan id).modChan 0 fun j => { j with bus := .idle }).modInst 3 f

/-- Port 7 ENABLED at Basic with a grant of the translator, its translator state changed. -/
def withXlt (f : XPort → XPort) : State :=
  (linked.modPort 7 fun p => { p with state := .ena }).modXport 7 fun x => f { x with granted := true }

/-- The power fields changed. -/
def withPwr (f : Pwr → Pwr) : State := { linked with pwr := f linked.pwr }

/-- The outcome is a next state of which a check holds. -/
def next? (o : Out) (q : State → Bool) : Bool :=
  match o with
  | .next t => q t
  | .fault _ => false
  | .refused _ => false

/-! ### Ill-formed commands are refused by each check -/

theorem test_wf_transactionStart : (Instr.transactionStart ⟨delimiter, 0, List.replicate 1025 0, 0, false⟩).wf = false := by decide +kernel
theorem test_wf_ep0Out : (Instr.ep0Out .hub true []).wf = false := by decide
theorem test_wf_bulkOut : (Instr.bulkOut 0 true (List.replicate 1025 0)).wf = false := by decide +kernel
theorem test_wf_xltOutz : (Instr.xltOutPacket 0 .outz 1 0 false [0]).wf = false := by decide
theorem test_wf_xltSetup : (Instr.xltOutPacket 0 .setup 1 0 false [0, 0]).wf = false := by decide
theorem test_wf_xltOut : (Instr.xltOutPacket 0 .out 1 0 false []).wf = false := by decide
theorem test_wf_responseRepeat : (Instr.responseRepeat ⟨delimiter, 0, List.replicate 1025 0, 0, false⟩).wf = false := by
  decide +kernel
theorem test_wf_regWriteDone : (Instr.regWrite .hub 0 0x540 4 2).wf = false := by decide
theorem test_wf_regRead : (Instr.regRead .hub 0 0x540 4 ⟨[], 0⟩ (some 2)).wf = false := by decide
theorem test_wf_frameHandOver : (Instr.frameHandOver 0 ⟨List.replicate 65 0, 0, [], false, false⟩).wf = false := by decide
theorem test_wf_idle : (Instr.idle 0 0).wf = false := by decide
theorem test_wf_stuck : (Instr.stuck 0 1025).wf = false := by decide
theorem test_wf_hello : (Instr.hello 0 65 0 0).wf = false := by decide
theorem test_wf_itemOutcome : (Instr.itemOutcome 0 (.data true (List.replicate 1025 0))).wf = false := by decide +kernel
theorem test_wf_accepts :
    (Instr.ep0Out .hub true [0]).wf = true ∧ (Instr.regWrite .hub 0 0x540 4 1).wf = true ∧ (Instr.regRead .hub 0 0x540 4 ⟨[], 0⟩ none).wf = true ∧
    (Instr.xltOutPacket 0 .setup 1 0 false [0, 0, 0, 0, 0, 0, 0, 0]).wf = true ∧ (Instr.idle 0 1024).wf = true ∧
    (Instr.frameHandOver 0 ⟨List.replicate 64 0, 0, [], false, false⟩).wf = true := by decide

/-! ### Worked examples of the spec -/

/-- 02 R35: PRT3_ID reads 0x0001_1013. -/
theorem test_prt3_id : readWord State.reset 0x1300 = 0x00011013 := by decide

/-- 07 R171: the check value of the data CRC. -/
theorem test_crc32_check : crc32 [0x31, 0x32, 0x33, 0x34, 0x35, 0x36, 0x37, 0x38, 0x39] = 0xCBF43926 := by decide +kernel

/-- 03 Example 3.1: the words pass, VSEL1 powers up by code 0b100 and fences by 0b011, VDDIO_G is at 3.3 V, the map is
locked; with PAR of FUSE4 wrong the slots act as code 0. -/
theorem test_example_3_1 :
    let s : State := { live with pins := { live.pins with fuse := #v[0x1B6DB6DB, 0, 0, 0, 0x8001B71B, 0x40000001] } }
    fperr s = 0 ∧ puCode s .vsel1 = 4 ∧ sfCode s .vsel1 = 3 ∧ puCode s (.pwren 4) = 3 ∧ iov s = true ∧ fuseLocked s = true := by
  decide

theorem test_example_3_1_parity :
    let s : State := { live with pins := { live.pins with fuse := #v[0, 0, 0, 0, 0x0001B71B, 0] } }
    fperr s = 16 ∧ puCode s .vsel1 = 0 := by decide

/-- 07 Example 7.2: 384 in each of TTB_RES0 to TTB_RES5 leaves 22,272. -/
theorem test_example_7_2 :
    ttbFree { live with ttb := { live.ttb with res := #v[384, 384, 384, 384, 384, 384, 0, 0, 0] } } = 22272 := by decide

/-- 10 Example 10.1: packet 1 is stored in bank 0, slot 0, and its ACK carries 0x20F. -/
theorem test_example_10_1 :
    next? (exec (.xltOutPacket 7 .out 3 2 false [1, 2]) (withXlt id)) (fun t =>
      t.answer == some ⟨.ack, 3, 2, false, 0x20F, []⟩ && (t.xport 7).ob[0].written == 1) = true := by decide +kernel

/-- 13 Example 13.1: at age 3 with AGELIM 3, Y ages; the younger frame of a lower class then stands behind it. -/
theorem test_example_13_1 :
    let y : RxEntry := { state := .queued, id := 0x600010, eprio := 3, age := 3, arr := 0 }
    let z : RxEntry := { state := .queued, id := 0x200500, eprio := 1, age := 0, arr := 1 }
    let s := withInst fun m => { m with ageLim := 3, rx := [y, z] }
    (rxQueue (s.inst 3)).map (·.arr) = [1, 0] ∧
    next? (exec (.aged 3) s) (fun t => (rxQueue (t.inst 3)).map (·.arr) == [0, 1]) = true := by decide +kernel

/-- 15 Example 15.1, lk 1: the overcurrent on port 2 turns it OFF, with OVC and OVCCNT 1. -/
theorem test_example_15_1_overcurrent :
    let s := live.modPort 2 fun p => { p with state := .ena, power := true, powerNow := true }
    next? (exec (.overcurrent 2 true) s) (fun t =>
      (t.port 2).state == .off && (t.port 2).ovcCnt == 1 && readWord t 0x1218 == 1) = true := by decide

/-- 15 Example 15.1, lk 2 and 3, as read at lk 31,000: FLT_STAT, FLT_LSEV0, and the bytes of the bitmap. -/
theorem test_example_15_1_reaction :
    let s := (live.modHdr (.prt 2) fun h => { h with err := 1, evtPnd := 0x80000000 }).modHdr .flt fun h => { h with evtEn := 1 }
    next? (exec (.reaction 2) s) (fun t =>
      readWord t 0x0708 == 0x24000004 && readWord t 0x0748 == 0x20 && (bitmap t).getD 0 0 == 0x80 &&
      (bitmap t).getD 2 0 == 4 && t.flt.react == 1 && t.flt.fences == 1) = true := by decide +kernel

/-- 17 Table 17.5, step 6: MIN 96 and MAX 192 of instance 0. -/
theorem test_worked_cell_quota :
    next? (exec (.mbrQuotaWrite 0 0x00C00060) live) (fun t => t.mbr.qMin[0] == 96 && t.mbr.qMax[0] == 192) = true := by decide

/-- 17 Table 17.5, step 7: the Sluice pin of channel A at HI 156, LO 120. -/
theorem test_worked_cell_watermark :
    next? (exec (.mbrWmWrite 0 0x009C0078) live) (fun t => t.mbr.wmHi[0] == 156 && t.mbr.wmLo[0] == 120) = true := by decide

/-- 17 §17.6: HUB_ROUTE0 reads 0xFFFF_F883 with the hub at 1, the bridge at 2 and the last reset at port 3. -/
theorem test_worked_cell_route0 :
    readWord { live with hub := { live.hub with routes := (((live.hub.routes.set 0 3).set 1 8).set 2 8) } } 0x0970 = 0xFFFFF883 := by
  decide +kernel

/-- 11 R298: HELLO is the identifier 1, which no instance receives: RSVID, and nothing is queued. -/
theorem test_reserved_identifier :
    next? (exec (.frameHandOver 1 ⟨[], crc21 1 [], [], false, false⟩) (withChan fun j => { j with bus := .receiving, rxId := 1, rxOpen := true }))
      (fun t => (t.inst 0).rx.isEmpty && t.mbr.seq[1] == 0 && !(t.chan 1).rxOpen) = true := by decide +kernel

/-- No word spells a command (log 14). -/
theorem test_no_table_word : decodeTableWord 32 0 = none ∧ State.reset.withFetchWord 32 0 = State.reset := ⟨rfl, rfl⟩

/-- A command at the front of the queue runs; the queue's rest stays. -/
theorem test_step_takes_the_front :
    next? (step { live with pending := [.clkCtcapCap, .por] }) (fun t => t.pending == [.por]) = true := by decide

/-! ### The hypotheses of the statements can be met -/

/-- Channel B's strobe at a point of its half-period. -/
def withStrobe (b : Strobe) (f : Pwr → Pwr := id) : State :=
  let s := withChan id
  { s with clk := { s.clk with strobe := s.clk.strobe.set 1 b }, pwr := f s.pwr }

/-- The step answers a next state. -/
def steps (s : State) : Bool := next? (step s) fun _ => true

theorem witness_StepRunsFrontCommand : { State.reset with pending := [.por, .wdg] }.pending = .por :: [.wdg] := by decide

theorem witness_IdleStepIsOneLk :
    (let s := withPwr fun p => { p with clockOn := false }
     s.pending = [] ∧ coreRuns s = false ∧ s.pwr.clockOn ≠ true) ∧
    (let s : State := { linked with rst := { linked.rst with phase := .b4 } }
     s.pending = [] ∧ coreRuns s = false ∧ entering s = false ∧ s.rst.phase ≠ .run) ∧
    (let s : State := { live with clk := { live.clk with lk := 32766 } }
     s.pending = [] ∧ coreRuns s = true ∧ entering s = false ∧ s.clk.lk ≠ 32767 ∧ s.pwr.round = .none ∧
     (∀ d, (s.chan d).rcvWait = false) ∧ (∀ n, (s.port n).state = .sus → (s.port n).held = false) ∧ strobeOn s 1 = false ∧
     s.upl.probing = false) ∧
    (∀ k ∈ [0, 31],
      let s : State := { live with upl := { live.upl with probing := true, probeLows := k } }
      s.upl.probing = true ∧ s.upl.probeLows = k) ∧
    (let s := withStrobe ⟨true, 0, 5⟩ fun p => { p with consented := BitVec.allOnes 21 }
     strobeOn s 1 = true ∧ 2 ≤ s.clk.divNow[(1 : Chan)] ∧ s.clk.strobe[(1 : Chan)].high = true ∧ held s (chanBit 1) = true) ∧
    (let s := withStrobe ⟨true, 3, 5⟩
     strobeOn s 1 = true ∧ held s (chanBit 1) = false ∧ 3 + 1 < s.clk.strobe[(1 : Chan)].half) ∧
    (let s := withStrobe ⟨false, 4, 5⟩
     strobeOn s 1 = true ∧ s.clk.strobe[(1 : Chan)].high = false ∧ 4 + 1 = s.clk.strobe[(1 : Chan)].half) := by decide

theorem witness_MemoryStaysCanonical :
    let s : State := { live with mem := [(0x3000, 1), (0x43FF, 255)], pending := [.rtmWrite 255 0] }
    MemOk s ∧ steps s = true := by decide

theorem witness_PoolStaysBounded :
    let s : State := { live with mbr := { live.mbr with qMin := Vector.replicate 4 128 }, pending := [.mbrQuotaWrite 3 0x00800080] }
    PoolOk s ∧ steps s = true := by decide

theorem witness_FusesOnlyRise :
    let s : State := { live with
      pins := { live.pins with otp := Vector.replicate 6 1, fpCmd := some (.program 191) }, pending := [.fprogProgramDone true] }
    steps s = true ∧ s.pins.otp[0] = 1 := by decide

theorem witness_FencesAndEnables :
    (coreRuns live = true ∧ ctlClass .ttb ≠ .full ∧ ctlClass (.mvf 3) = .full) ∧
    (∀ b ∈ [Blk.prt 7, .xlt, .jx 1, .mbr, .mvf 3],
      let s := withHdr b fun h => { h with siding := true }
      coreRuns s = true ∧ ctlClass b = .full ∧ (s.hdr b).siding = true ∧ (s.hdr b).en = true ∧ (s.hdr b).inrst = false ∧
      srcSet s b = false ∧ fatal s = false) ∧
    (let s := withHdr (.prt 7) fun h => { h with siding := true, en := false }
     (s.hdr (.prt 7)).en = false ∧ (s.port 7).pwrPend = false) ∧
    (let s := withHdr (.prt 7) fun h => { h with inrst := true, rstAt := 0 }
     coreRuns s = true ∧ (s.hdr (.prt 7)).inrst = true ∧ ctlClass (.prt 7) = .full ∧ s.now < (s.hdr (.prt 7)).rstAt + 192 ∧
     (s.hdr (.prt 7)).rstAt + 192 ≤ ({ s with now := 192 } : State).now ∧ (s.hdr (.prt 7)).en ≠ false) ∧
    (let s : State := { live with flt := { live.flt with src := 128 } }
     coreRuns s = true ∧ ctlClass (.prt 7) = .full ∧ ((s.hdr (.prt 7)).siding = false ∨ srcSet s (.prt 7) = true)) ∧
    (Live live (.prt 7) ∧ ctlClass .dbg ≠ .full ∧ (live.hdr (.prt 7)).en ≠ false ∧ (live.hdr (.prt 7)).en = true) ∧
    (let s := withHdr (.jx 1) fun h => { h with en := false }
     Live s (.jx 1) ∧ (s.hdr (.jx 1)).en ≠ true ∧ (s.hdr (.jx 1)).siding = false) := by decide

theorem witness_BlockResets :
    (coreRuns live = true ∧ ctlClass .dbg = .none ∧ ctlClass .flt ≠ .none ∧ (live.hdr .flt).inrst = false) ∧
    (let s := withHdr .pwr fun h => { h with inrst := true }
     coreRuns s = true ∧ (s.hdr .pwr).inrst = true ∧ ctlClass .pwr = .reset ∧ ctlClass .pwr ≠ .none) ∧
    (let s := withHdr .mbr fun h => { h with inrst := true }
     coreRuns s = true ∧ (s.hdr .mbr).inrst = true ∧ ctlClass .mbr = .full) ∧
    (let s := withHdr (.jx 1) fun h => { h with inrst := true, fenceAfter := true }
     coreRuns s = true ∧ (s.hdr (.jx 1)).inrst = true ∧ next? (exec (.blockResetOpen (.jx 1)) s) (fun t =>
       (t.hdr (.jx 1)).siding) = true) := by decide +kernel

theorem witness_PageHeaders :
    (Live live .pwr ∧ live.pwr.round = .none) ∧
    (let a : Half := 0x4400; coreRuns live = true ∧ 0x4400 ≤ a.toNat ∧ a.toNat < 0x7F00) ∧
    (let a : Half := 0x7EFF; 0x4400 ≤ a.toNat ∧ a.toNat < 0x7F00) ∧
    (let a : Half := 0x0FFC; 0x0B00 ≤ a.toNat ∧ a.toNat < 0x1000) ∧
    (let a : Half := 0x8000; 0x8000 ≤ a.toNat) ∧
    (let s := withHdr (.mvf 3) fun h => { h with inrst := true }
     let a : Half := 0x2708
     coreRuns s = true ∧ a.toNat / 256 = blkPage (.mvf 3) ∧ (s.hdr (.mvf 3)).inrst = true ∧ a.toNat % 256 / 4 ≠ 1) ∧
    (let a : Half := 0x0708
     a.toNat / 256 = blkPage .flt ∧ (live.hdr .flt).inrst = false ∧ a.toNat % 256 / 4 = 2) ∧
    (let a : Half := 0x7F0C
     a.toNat / 256 = blkPage .dbg ∧ (live.hdr .dbg).inrst = false ∧ a.toNat % 256 / 4 = 3) ∧
    (blkPage (.mvf 3) < 64 ∧ ∀ c ∈ (List.range 28).map blkOf, blkPage c ≠ 63) ∧ (live.hdr .sys).inrst = false := by decide +kernel

theorem witness_FuseParity :
    (let s : State := { live with pins := { live.pins with fuse := Vector.replicate 6 0x80000000 } }
     (∀ n : Port, fuseOk s (CPin.pwren n).place.1 = false ∧ fuseOk s (CPin.dd n).place.1 = false) ∧
     fuseOk s 1 = false ∧ fuseOk s 3 = false ∧ fuseOk s 4 = false ∧ fuseOk s 5 = false) ∧
    live.pins.fuse[(0 : Fin 6)] = 0 := by decide +kernel

theorem witness_OneTimeProgramming :
    (coreRuns live = true ∧ fuseLocked live = false ∧ live.clk.cur ≠ 3 ∧ (191 : Nat) < 192 ∧ live.opt.otp[(15 : Fin 16)] = {}) ∧
    (let w : Word := 0x504640C0
     w.toNat / 65536 ≠ 0x5046 ∨ (w.toNat / 16384 % 4 ≠ 1 ∧ w.toNat / 16384 % 4 ≠ 2) ∨ 191 < w.toNat % 256) ∧
    (let w : Word := 0x504740BF
     w.toNat / 65536 ≠ 0x5046 ∨ (w.toNat / 16384 % 4 ≠ 1 ∧ w.toNat / 16384 % 4 ≠ 2) ∨ 191 < w.toNat % 256) ∧
    (let w : Word := 0x504600BF
     w.toNat / 65536 ≠ 0x5046 ∨ (w.toNat / 16384 % 4 ≠ 1 ∧ w.toNat / 16384 % 4 ≠ 2) ∨ 191 < w.toNat % 256) ∧
    (let w : Word := 0x504640BF
     ¬ (w.toNat / 65536 ≠ 0x5046 ∨ (w.toNat / 16384 % 4 ≠ 1 ∧ w.toNat / 16384 % 4 ≠ 2) ∨ 191 < w.toNat % 256 ∨
       live.pins.fpCmd.isSome = true) ∧ w.toNat / 16384 % 4 = 1) ∧
    (let w : Word := 0x504680BF
     ¬ (w.toNat / 65536 ≠ 0x5046 ∨ (w.toNat / 16384 % 4 ≠ 1 ∧ w.toNat / 16384 % 4 ≠ 2) ∨ 191 < w.toNat % 256 ∨
       live.pins.fpCmd.isSome = true) ∧ w.toNat / 16384 % 4 = 2) ∧
    (let w : Word := 0x4F504001
     w.toNat / 65536 ≠ 0x4F50 ∨ (w.toNat / 16384 % 4 ≠ 1 ∧ w.toNat / 16384 % 4 ≠ 2) ∨ (Fin.ofNat 16 (w.toNat % 16) : Fin 16) = 1) ∧
    (let w : Word := 0x4F51400F
     w.toNat / 65536 ≠ 0x4F50 ∨ (w.toNat / 16384 % 4 ≠ 1 ∧ w.toNat / 16384 % 4 ≠ 2) ∨ (Fin.ofNat 16 (w.toNat % 16) : Fin 16) = 1) ∧
    (let w : Word := 0x4F50000F
     w.toNat / 65536 ≠ 0x4F50 ∨ (w.toNat / 16384 % 4 ≠ 1 ∧ w.toNat / 16384 % 4 ≠ 2) ∨ (Fin.ofNat 16 (w.toNat % 16) : Fin 16) = 1) ∧
    (let w : Word := 0x4F50400F
     ¬ (w.toNat / 65536 ≠ 0x4F50 ∨ (w.toNat / 16384 % 4 ≠ 1 ∧ w.toNat / 16384 % 4 ≠ 2) ∨
       (Fin.ofNat 16 (w.toNat % 16) : Fin 16) = 1 ∨ live.opt.cmd.isSome = true ∨ live.opt.olocked = true) ∧
     w.toNat / 16384 % 4 = 1) ∧
    (let w : Word := 0x4F50800F
     ¬ (w.toNat / 65536 ≠ 0x4F50 ∨ (w.toNat / 16384 % 4 ≠ 1 ∧ w.toNat / 16384 % 4 ≠ 2) ∨
       (Fin.ofNat 16 (w.toNat % 16) : Fin 16) = 1 ∨ live.opt.cmd.isSome = true ∨ live.opt.olocked = true) ∧
     w.toNat / 16384 % 4 = 2) ∧
    (let s : State := { live with opt := { live.opt with otp := Vector.replicate 16 { data := 2 }, pdata0 := 1 } }
     s.opt.otp[(15 : Fin 16)].partialOf = none ∧ s.opt.otp[(15 : Fin 16)].data &&& ~~~(s.opt.pdata1 ++ s.opt.pdata0) ≠ 0) ∧
    (let s : State := { live with opt := { live.opt with otp := Vector.replicate 16 { data := 1 }, pdata0 := 1 } }
     s.opt.otp[(15 : Fin 16)].partialOf = none ∧ s.opt.otp[(15 : Fin 16)].data = s.opt.pdata1 ++ s.opt.pdata0) ∧
    (let s : State := { live with opt := { live.opt with otp := Vector.replicate 16 { data := 9, partialOf := some 1 }, pdata0 := 1 } }
     s.opt.otp[(15 : Fin 16)].partialOf = some (s.opt.pdata1 ++ s.opt.pdata0)) := by
  refine ⟨?_, ?_, ?_, ?_, ?_, ?_, ?_, ?_, ?_, ?_, ?_, ?_, ?_, ?_⟩ <;> decide

theorem witness_RetainedMemoryProtection :
    (let s : State := { live with bkp := { live.bkp with wp := 8, lock := true } }
     let w : Fin 256 := 255
     coreRuns s = true ∧ s.bkp.wp.getLsbD (w.val / 64) = true ∧ (s.hdr .bkp).inrst = false ∧ s.bkp.lock = true) ∧
    (let s : State := { live with bkp := { live.bkp with wp := 7 }, mem := [(0x43FC, 1)], rst := { live.rst with swrKey := true } }
     let w : Fin 256 := 255
     coreRuns s = true ∧ s.bkp.wp.getLsbD (w.val / 64) = false ∧ Memory.wf s.mem = true ∧ (s.hdr .bkp).inrst = false ∧
     s.bkp.lock = false ∧ s.rst.swrKey = true ∧ (s.ep .hub).stage = .none) := by decide

theorem witness_RetainedMemoryParity :
    let s : State := { live with parBad := [0x43FC] }
    coreRuns s = true ∧ 0x4000 + 4 * (0 : Fin 256).val ∉ s.parBad ∧ 0x4000 + 4 * (255 : Fin 256).val ∈ s.parBad ∧
    s.bkp.wp.getLsbD ((255 : Fin 256).val / 64) = false := by decide

theorem witness_CellTime :
    (coreRuns live = true ∧ live.clk.ctRun = true ∧ (∀ d, (live.chan d).rcvWait = false) ∧
     (∀ m, (live.port m).state = .sus → (live.port m).held = false) ∧ ∀ j : Fin 9, live.ttb.ret[j] = false) ∧
    (let s := withHdr (.prt 7) fun h => { h with siding := true }
     targetOut s 7 = true ∧ targetOut s 8 = false ∧ s.ttb.out[(8 : Fin 9)] = false ∧ s.ttb.ret[(8 : Fin 9)] = false) ∧
    (live.pwr.round ≠ .preadySent ∧ live.clk.ctValid = false) ∧
    (let s : State := { live with clk := { live.clk with ctValid := true, tier := 7, adj := 0, lk := 48, frame := 65535 } }
     coreRuns s = true ∧ s.clk.ctValid = true ∧ s.clk.frame = 65535 ∧ s.clk.lk.toNat = 8 * (s.clk.tier - 1) + s.clk.adj ∧
     s.clk.fsSeen = false ∧ s.clk.fsChecked = false ∧ s.pwr.noMiss = false) ∧
    (let s : State := { live with clk := { live.clk with ctValid := true, lk := 1, fsSeen := true } }
     coreRuns s = true ∧ s.clk.ctValid = true ∧ s.clk.lk.toNat ≠ 8 * (s.clk.tier - 1) + s.clk.adj ∧ s.clk.fsSeen = true) ∧
    (let s := withPort .ena fun p => { p with full := true }
     (s.port 7).state = .ena ∧ (s.port 7).full = true ∧ (s.port 7).suspReq = false ∧ (s.port 7).noFs = false ∧
     (s.port 0).state ≠ .ena) ∧
    (let s := withPort .ena fun p => { p with full := true, noFs := true }
     (s.port 7).noFs = true) := by
  decide

theorem witness_LevelsDividersAndTrims :
    (coreRuns live = true ∧ live.pwr.round = .none ∧ live.pwr.exit = .none ∧ live.clk.vbusy = false ∧
     siding live .pwr = false ∧ (live.hdr .pwr).inrst = false ∧ levelCode 0 = levelCode live.clk.cur ∧
     levelCode 3 ≠ levelCode live.clk.cur ∧ live.pwr.low = none ∧ live.clk.pgLow = false) ∧
    (let s : State := { live with clk := { live.clk with cur := 2, vcode := 2 } }
     levelCode 3 = levelCode s.clk.cur ∧ levelCode 1 ≠ levelCode s.clk.cur ∧ s.clk.vcode = 2 ∧ levelCode 1 = 1) ∧
    (let s : State := { live with clk := { live.clk with vbusy := true, vphase := .start } }
     coreRuns s = true ∧ s.clk.vbusy = true ∧ s.clk.vphase = .start ∧ s.clk.vphase ≠ .idle) ∧
    (let s : State := { live with clk := { live.clk with pgLow := true } }
     s.clk.vbusy = false ∧ siding s .pwr = false ∧ s.clk.pgLow = true) ∧
    (let v := 4097; 4096 < v) ∧ (let v := 9; v % 2 = 1 ∧ v < 10) ∧ (let v := 4096; v % 2 = 0 ∧ 10 ≤ v ∧ v ≤ 4096) ∧
    live.upl.txn.target = .none ∧
    (let s : State := { live with upl := { live.upl with txn := { target := .portI } } }
     coreRuns s = true ∧ s.upl.txn.target ≠ .none) ∧
    (let s := withPwr fun p => { p with round := .preadySent }
     coreRuns s = true ∧ s.pwr.round = .preadySent) ∧
    (let s := withPwr fun p => { p with exit := .parkReturn, low := some .park }
     coreRuns s = true ∧ s.pwr.round = .none ∧ s.pwr.low.isSome = true ∧ s.pwr.exit ≠ .none) := by decide

theorem witness_ResetSources :
    (let s : State := { live with rst := { live.rst with
       wdgEn := true, wdgPeriod := 3, wdgFrames := 3, swrKey := true, dbgHeld := true } }
     s.rst.phase = .run ∧ s.pins.fpCmd = none ∧ s.opt.cmd = none ∧ coreRuns s = true ∧
     s.rst.wdgEn = true ∧ s.rst.wdgPeriod ≤ s.rst.wdgFrames ∧ 1 ≤ s.rst.wdgFrames ∧ s.clk.armed = true ∧
     s.rst.swrKey = true ∧ s.rst.dbgHeld = true ∧ (s.ep .hub).stage = .none) ∧
    (∀ p ∈ [RstPhase.b1, .b2, .b2Released, .b3, .b4],
      let s : State := { live with rst := { live.rst with phase := p, reach := .core } }
      s.rst.phase ≠ .run ∧ s.clk.armed = true ∧ s.rst.reach = .core) := by decide

/-- The state with the reset sequencer at a step. -/
def atPhase (p : RstPhase) (g : Nat) (f : Rst → Rst := id) : State :=
  { State.reset with rst := f { State.reset.rst with phase := p, group := g } }

theorem witness_BringUp :
    (let s := atPhase .b1 0 fun r => { r with clfOn := true }
     s.rst.clfOn = true ∧ s.rst.phase = .b1 ∧ s.rst.porOn = false ∧ s.rst.borCoreOn = false ∧ s.rst.borIoOn = false ∧
     s.pins.railAon = true ∧ s.pins.railG = true) ∧
    (let s := atPhase .b1 0 fun r => { r with borIoOn := true }
     s.rst.phase = .b1 ∧ s.rst.porOn = false ∧ s.pins.railAon = true ∧ s.rst.borIoOn = true) ∧
    (let s := atPhase .b1 0 fun r => { r with porOn := true }
     s.rst.porOn = true) ∧
    (let s := atPhase .b2 0
     s.rst.phase = .b2 ∧ s.rst.porOn = false ∧ s.rst.borCoreOn = false ∧ s.rst.borIoOn = false ∧ s.rst.clfOn = false ∧
     s.pins.railG = true) ∧
    (atPhase .b2Released 0).rst.phase = .b2Released ∧
    ((atPhase .b3 0).rst.phase = .b3 ∧ (atPhase .b3 0).pwr.clockOn = true) ∧
    ((atPhase .b4 0).rst.phase = .b4 ∧ (atPhase .b4 0).rst.group = 0 ∧ (atPhase .b4 0).rst.reach = .whole) ∧
    (let s := atPhase .b4 0 fun r => { r with reach := .core }
     s.rst.group = 0 ∧ s.rst.reach ≠ .whole) ∧
    (let s := atPhase .b4 1 fun r => { r with memInit := false, reach := .device }
     let a := 0x3FFF
     s.rst.phase = .b4 ∧ s.rst.group = 1 ∧ s.rst.memInit = false ∧ 0x3000 ≤ a ∧ a < 0x4000 ∧ s.rst.reach ≠ .whole ∧
     Memory.wf s.mem = true ∧ 0x4000 ≤ a + 1) ∧
    (let s := atPhase .b4 1 fun r => { r with memInit := false }
     let a := 0x43FF
     s.rst.group = 1 ∧ s.rst.reach = .whole ∧ 0x4000 ≤ a ∧ a < 0x4400) ∧
    (let s := atPhase .b4 1
     s.rst.phase = .b4 ∧ s.rst.group = 1 ∧ s.rst.memInit = true ∧ s.clk.vbusy = false) ∧
    (let s := atPhase .b4 2
     s.rst.phase = .b4 ∧ s.rst.group = 2 ∧ ∀ n, (s.hdr (.prt n)).en = false) ∧
    (let s := (atPhase .b4 2).modHdr (.prt 7) fun h => { h with en := true }
     s.rst.group = 2 ∧ (s.hdr (.prt 7)).en = true) ∧
    (let s := atPhase .b4 3
     s.rst.phase = .b4 ∧ s.rst.group = 3 ∧ s.pwr.round = .none ∧ ∀ d, active s (.jx d) = false) ∧
    (let s := (atPhase .b4 3).modHdr (.jx 1) fun h => { h with en := true }
     s.rst.group = 3 ∧ active s (.jx 1) = true ∧ held s (chanBit 1) = false) ∧
    (let s := atPhase .b4 4
     s.rst.phase = .b4 ∧ s.rst.group = 4) := by decide

/-- The watchdog's registers changed. -/
def withWdg (f : Rst → Rst) : State := { live with rst := f live.rst }

theorem witness_WatchdogKicks :
    (Live live .rst ∧ live.rst.wdgEn = false) ∧
    (let s := withWdg fun r => { r with wdgEn := true }
     Live s .rst ∧ s.rst.wdgEn = true ∧ s.rst.wdgArmed = false ∧ s.rst.wdgBadwarn = false) ∧
    (let s := withWdg fun r => { r with wdgEn := true, wdgArmed := true, wdgBadwarn := true }
     Live s .rst ∧ s.rst.wdgEn = true ∧ s.rst.wdgArmed = true ∧ s.rst.wdgBadwarn = true) := by decide

theorem witness_ResetRequests :
    (let s := withWdg fun r => { r with wdgPeriod := 3, wdgWarn := 1, wdgFrames := 2 }
     coreRuns s = true ∧ s.rst.wdgWarn ≠ 0 ∧ s.rst.wdgWarned = false ∧ s.rst.wdgFrames = wdgLimit s - s.rst.wdgWarn) ∧
    ((0x5358 : Half) ≠ 0x5357) ∧
    (coreRuns linked = true ∧ linked.hub.conf = true ∧ (optByte linked 6).getLsbD 1 = false ∧ (0 : Half) ≠ 0xD00D) := by decide

theorem witness_LinkTrainingAndReset :
    (groupRuns live 2 = true ∧ live.upl.linkup = false ∧ live.upl.phase = .unconnected ∧ live.upl.connect = true) ∧
    (groupRuns linked 2 = true ∧ linked.upl.linkup = true ∧ linked.upl.connect = false) ∧
    (∀ p ∈ [LinkPhase.resetting, .chirped, .training, .trained],
      let s : State := { live with upl := { live.upl with phase := p } }
      groupRuns s 2 = true ∧ s.upl.phase = p) ∧
    (let s : State := { linked with upl := { linked.upl with connect := true } }
     groupRuns s 2 = true ∧ s.upl.linkup = true ∧ s.upl.connect = true) ∧
    (let s : State := { linked with upl := { linked.upl with fsCounted := true } }
     coreRuns s = true ∧ s.upl.linkup = true ∧ s.upl.fsCounted = true ∧ s.upl.suspended = false) ∧
    live.upl.fsCounted = false ∧
    (let s : State := { (linked.modPort 7 fun p => { p with state := .sus }) with
       upl := { linked.upl with suspended := true, wakeWanted := true } }
     coreRuns s = true ∧ s.upl.suspended = true ∧ s.upl.wakeWanted = true ∧ (s.port 7).state = .sus ∧
     (s.port 7).selSusp = false ∧ held s (portBit 7) = false ∧
     held { s with pwr := { s.pwr with consented := BitVec.allOnes 21 } } (portBit 7) = true) := by decide

/-- A packet with the header fields given and a good HCRC. -/
def pkt (typ : BitVec 4) (addr : BitVec 7) (x2 : Bool) : RawPkt := ⟨delimiter, mkHeader typ addr 0 false 0, [], 0, x2⟩

/-- The hub ready for a transaction at lk `lk`. -/
def atLk (lk : BitVec 15) (s : State := linked) : State := { s with clk := { s.clk with lk := lk } }

theorem witness_HeaderChecksAndRouting :
    ({ pkt 4 1 false with delim := 0 }.delim ≠ delimiter) ∧
    (coreRuns linked = true ∧ linked.pwr.round = .none ∧ linked.upl.probing = false ∧ linked.upl.txn = {} ∧
     (linked.hdr .ttb).inrst = false ∧ (pkt 4 1 false).delim = delimiter) ∧
    (let h : BitVec 32 := 0x00000001
     hCrc (h ||| (~~~(crc6 h)).setWidth 32 <<< 26) = ~~~(crc6 (h ||| (~~~(crc6 h)).setWidth 32 <<< 26)) ∧
     hCrc (h ||| (crc6 h ^^^ 1).setWidth 32 <<< 26) ≠ crc6 h ∧ hCrc (h ||| (crc6 h ^^^ 1).setWidth 32 <<< 26) ≠ ~~~(crc6 h)) ∧
    (let h := (pkt 15 1 false).header; hCrc h = crc6 h ∧ protoBad h = true) ∧
    (∀ a ∈ [(1 : BitVec 7), 2, 3, 9], let h := (pkt 4 a false).header
      hCrc h = crc6 h ∧ protoBad h = false ∧ startsTxn (hType h) = true) ∧
    (32256 + (8 * (linked.clk.tierNow - 1) + linked.clk.adjNow) < (atLk 32257).clk.lk.toNat) ∧
    (¬ 32256 + (8 * (linked.clk.tierNow - 1) + linked.clk.adjNow) < (atLk 32256).clk.lk.toNat) ∧
    (let s : State := { linked with ttb := { linked.ttb with enf := true } }
     let h := (pkt 6 3 false).header
     overrun s (routeOf s (hAddr h)) (hType h) = true ∧ startsTxn (hType h) = true) ∧
    (overrun linked (.port 7) 4 = false ∧ routeOf linked 9 = .none ∧ routeOf linked 3 = .port 7 ∧ routeOf linked 1 = .portI ∧
     funcAt linked 1 = some .hub ∧ dataOk (pkt 4 1 false) = true ∧ (linked.port 7).state ≠ .ena) ∧
    (let s := linked.modPort 7 fun p => { p with state := .ena, full := true }
     (s.port 7).state = .ena ∧ (s.port 7).suspReq = false ∧ (s.port 7).full = true ∧ (pkt 4 3 true).x2 = true ∧
     (pkt 4 3 false).x2 = false ∧ x2ToFull s (pkt 10 3 true) = true ∧ x2ToFull s (pkt 10 3 false) = false) ∧
    (let s := linked.modPort 7 fun p => { p with state := .ena }
     (s.port 7).full = false ∧ (s.port 7).suspReq = false) ∧
    (let s : State := { linked with hub := { linked.hub with routes := linked.hub.routes.set 9 8 } }
     routeOf s 9 = .portI ∧ funcAt s 9 = none) ∧
    (let h := (pkt 10 3 false).header
     hCrc h = crc6 h ∧ protoBad h = false ∧ startsTxn (hType h) = false ∧ hType h ≠ 12) ∧
    (let p : RawPkt := ⟨delimiter, mkHeader 12 127 0 false 1, [0, 0], 0, false⟩
     hCrc p.header = crc6 p.header ∧ protoBad p.header = false ∧ hType p.header = 12 ∧ dataOk p = false) := by decide +kernel

/-- A transaction in progress. -/
def inTxn (t : Txn) (st : PState) : State :=
  { (linked.modPort 7 fun p => { p with state := st }) with upl := { linked.upl with txn := t } }

theorem witness_TransactionEnds :
    (let s := inTxn { target := .port 7, phase := .turnaround, wantsAck := true, sched := true } .ena
     coreRuns s = true ∧ s.upl.txn.target = .port 7 ∧ s.upl.txn.phase = .turnaround ∧ (s.port 7).state = .ena ∧
     s.upl.txn.wantsAck = true ∧ s.upl.txn.sched = true ∧ s.upl.txn.mute = false ∧ hType (pkt 7 3 false).header = 7) ∧
    (let s := inTxn { target := .port 7, phase := .turnaround } .ena
     s.upl.txn.wantsAck = false ∧ s.upl.txn.sched = false ∧ s.upl.txn.mute = false) ∧
    (let s := inTxn { target := .port 7, phase := .turnaround, mute := true } .ena
     s.upl.txn.target = .port 7 ∧ s.upl.txn.mute = true) ∧
    (∀ a ∈ [Target.portI, .xlt 7], let s := inTxn { target := a, phase := .turnaround } .off
     s.upl.txn.target = a ∧ s.upl.txn.phase = .turnaround ∧ s.upl.txn.phase ≠ .handshake) ∧
    (inTxn { target := .port 7, phase := .handshake } .ena).upl.txn.phase = .handshake ∧
    (let s := inTxn {} .ena
     (0x80 : Byte).getLsbD (7 : Port).val = true ∧ (s.port 7).state = .ena ∧ (0x7F : Byte).getLsbD (7 : Port).val = false) := by
  decide +kernel

theorem witness_ReservationWrites :
    Live live .ttb ∧
    (let counts (j : Fin 9) : Bool := !targetOut live j && (decide (j = 8) || !live.ttb.out[j])
     let sum (v : Nat) : Nat :=
       ((List.finRange 9).map fun j => if counts j then (if j = 8 then v else live.ttb.res[j]) else 0).sum
     24576 < sum 24577 ∧ sum 24576 ≤ 24576) := by decide

theorem witness_HostPackets :
    (inService (withPwr fun p => { p with clockOn := false }) = false ∧ linked.pwr.round = .none) ∧
    (let s := withPwr fun p => { p with round := .voting }
     inService s = true ∧ s.pwr.round ≠ .none ∧ s.pwr.reqHeld = none) ∧
    (let s := withPwr fun p => { p with round := .preadySent, rstate := .heron, entry := 1 }
     entering s = true ∧ s.pwr.clockOn = true) ∧
    (let s := withPwr fun p => { p with round := .agreed, consented := BitVec.allOnes 21 }
     s.pwr.round = .agreed ∧ ackToHub s s.hub.addr = true ∧ inService s = true ∧ s.pwr.reqHeld = none ∧
     firstRefusal s = none) ∧
    (inService live = true ∧ live.pwr.round = .none ∧ fPresent live .bridge = false) := by decide +kernel

/-- A SETUP with no data stage, one with OUT data, and one with IN data. -/
def setupOf (rtype request : Byte) (value index length : Half) : Setup := ⟨rtype, request, value, index, length⟩

theorem witness_SetupStage :
    Heard linked .hub ∧ Heard linked .bridge ∧
    (let q := setupOf 0x00 0x03 1 0 0
     let s := withEp0 fun e => { e with lastSetup := some (true, q), stage := .status }
     Heard s .hub ∧ (s.ep .hub).lastSetup = some (true, q) ∧ (s.ep .hub).stageSeen = false ∧ (s.ep .hub).stage = .status) ∧
    (let q := setupOf 0x00 0x03 1 0 0
     setupBad linked .hub q = none ∧ q.request ≠ 0x41 ∧ (linked.ep .hub).lastSetup ≠ some (true, q)) ∧
    (let q := setupOf 0xC0 0x41 0 0 4
     setupBad linked .hub q = none ∧ q.request = 0x41 ∧ rtypeOk .hub 0x41 q.rtype = false ∧ q.value.toNat % 16 = 0) ∧
    (setupBad linked .hub (setupOf 0 0xFF 0 0 0) = some .unknown) ∧
    (setupBad linked .hub (setupOf 0x80 0x03 1 0 0) = some .format) := by decide

theorem witness_OutStages :
    (64 < (List.replicate 65 (0 : Byte)).length ∧ (List.replicate 64 (0 : Byte)).length ≤ 64) ∧
    (let s := withEp0 fun e => { e with stage := .outData, setup := setupOf 0x40 0x41 0 0 4, seq := true, got := [1, 2, 3] }
     Heard s .hub ∧ (s.ep .hub).stage = .outData ∧ true = (s.ep .hub).seq ∧ false ≠ (s.ep .hub).seq ∧
     (s.ep .hub).got.length + 1 ≤ (s.ep .hub).setup.length.toNat ∧
     (s.ep .hub).setup.length.toNat < (s.ep .hub).got.length + 2) ∧
    (∀ st ∈ [Stage.none, .inData, .status, .halted], ∀ b ∈ [true, false],
      let s := withEp0 fun e => { e with stage := st, busy := b }
      Heard s .hub ∧ (s.ep .hub).stage = st ∧ (s.ep .hub).busy = b ∧ (s.ep .hub).fresh = false ∧ (s.ep .hub).seq = true) ∧
    (let s := withEp0 fun e => { e with seq := false }
     Heard s .hub ∧ (s.ep .hub).stage = .none ∧ (s.ep .hub).fresh = false ∧ (s.ep .hub).seq = false) ∧
    (let s := withEp0 fun e => { e with fresh := true }
     Heard s .hub ∧ (s.ep .hub).stage = .none ∧ (s.ep .hub).fresh = true) := by
  refine ⟨?_, ?_, ?_, ?_, ?_⟩ <;> decide

theorem witness_InStages :
    (∀ st ∈ [Stage.halted, .none, .status, .inData], ∀ b ∈ [true, false],
      let s := withEp0 fun e => { e with stage := st, busy := b }
      Heard s .hub ∧ (s.ep .hub).stage = st ∧ (s.ep .hub).busy = b ∧ (s.ep .hub).ready = false ∧ (s.ep .hub).pend = none ∧
      (s.ep .hub).replayBad = false ∧ isFeature (s.ep .hub).setup = false) ∧
    (let s := withEp0 fun e => { e with pend := some (true, [1]) }
     (s.ep .hub).stage = .none ∧ (s.ep .hub).pend.map (·.1) = some true) ∧
    (let s := withEp0 fun e => { e with stage := .status, replayBad := true }
     (s.ep .hub).stage = .status ∧ (s.ep .hub).replayBad = true) ∧
    (let s := withEp0 fun e => { e with stage := .status, busy := true, setup := setupOf 0x23 0x22 4 1 0 }
     (s.ep .hub).busy = true ∧ isFeature (s.ep .hub).setup = true) ∧
    (let s := withEp0 fun e => { e with stage := .outData, setup := setupOf 0x40 0x41 0 0 4, got := [1, 2, 3, 4] }
     (s.ep .hub).stage = .outData ∧ (s.ep .hub).got.length = (s.ep .hub).setup.length.toNat ∧ (s.ep .hub).busy = false ∧
     (s.ep .hub).atEnd = none ∧ s.pwr.reqHeld = none) ∧
    (let s := withEp0 fun e => { e with stage := .outData, setup := setupOf 0x40 0x41 0 0 4, got := [1, 2, 3] }
     (s.ep .hub).got.length ≠ (s.ep .hub).setup.length.toNat) ∧
    (let s := withEp0 fun e => { e with stage := .inData, ready := true, data := [1, 2], seq := true }
     (s.ep .hub).ready = true ∧ (s.ep .hub).pend = none ∧ dataFits s 2 = true ∧ dataFits (atLk 32767 s) 2 = false) ∧
    (let s := withEp0 fun e => { e with stage := .inData, ready := true, data := [1, 2], seq := true, pend := some (true, [1]) }
     (s.ep .hub).pend.map (·.1) = some true ∧ (s.ep .hub).seq = true ∧ dataFits s 1 = true ∧ 1 ≤ (0 : BitVec 10).toNat + 1 ∧
     ([1] : List Byte).length < 64 ∧ (s.ep .hub).busy = false ∧ (s.ep .hub).atEnd = none ∧ s.pwr.reqHeld = none) ∧
    (let s := withEp0 fun e => { e with
       stage := .inData, ready := true, data := List.replicate 65 1, pend := some (false, List.replicate 64 1) }
     (s.ep .hub).pend.map (·.1) = some false ∧ 64 ≤ (List.replicate 64 (1 : Byte)).length ∧
     ((s.ep .hub).data.drop 64).take (min 64 (1023 + 1)) = [1] ∧ dataFits s 1 = true) ∧
    (let s := withEp0 fun e => { e with stage := .inData, ready := true, data := [1, 2], pend := some (false, [1, 2]) }
     (s.ep .hub).pend.map (·.1) = some false ∧ ¬ 2 ≤ (0 : BitVec 10).toNat + 1) ∧
    (let s : State := { (withEp0 fun e => { e with stage := .status }) with pwr := { live.pwr with reqHeld := some .heron } }
     Heard s .hub ∧ (s.ep .hub).atEnd = none ∧ s.pwr.reqHeld = some .heron ∧ s.pwr.low = none ∧ s.pwr.exit = .none ∧
     (s.hdr .pwr).inrst = false) ∧
    (let s := withEp0 fun e => { e with stage := .status, atEnd := some (.instReset 3) }
     Heard s .hub ∧ (s.ep .hub).atEnd = some (.instReset 3) ∧ s.pwr.reqHeld = none ∧ (s.hdr (.mvf 3)).inrst = false) := by
  refine ⟨?_, ?_, ?_, ?_, ?_, ?_, ?_, ?_, ?_, ?_, ?_, ?_⟩ <;> decide

theorem witness_StatusEndpointAndAcks :
    (coreRuns linked = true ∧ (linked.hdr .ttb).inrst = false ∧ linked.upl.probing = false ∧ entering linked = false ∧
     linked.upl.txn.target = .none ∧ pastCutoff linked = false ∧ linked.hub.conf = true ∧ linked.pwr.round = .none ∧
     linked.hub.ep1Halted = false ∧ linked.hub.ep1All = false ∧ ¬ (∃ x ∈ bitmap linked, x ≠ 0) ∧ live.hub.conf = false) ∧
    (let s : State := { linked with hub := { linked.hub with ep1All := true } }
     s.hub.ep1All = true ∧ 8 ≤ (7 : BitVec 10).toNat + 1 ∧ dataFits s 8 = true ∧ s.hub.ep1Halted = false ∧
     { s with hub := { s.hub with ep1Halted := true } }.hub.ep1Halted = true) ∧
    (let s := withPwr fun p => { p with round := .agreed, rstate := .retain, consented := BitVec.allOnes 21 }
     s.pwr.round = .agreed ∧ firstRefusal s = none ∧ allConsented s = true ∧ s.upl.txn.target = .none) ∧
    (routeOf linked 2 = .portI ∧ funcAt linked 2 = some .bridge ∧ funcAt linked 1 = some .hub) ∧
    (let s := linked.modBep 11 fun e => { e with pend := some [1], ackable := true }
     let k : Fin 12 := 11
     (12 : BitVec 4).toNat = k.val + 1 ∧ k.val % 3 ≠ 0 ∧ (s.bep k).pend.isSome = true ∧ (s.bep k).ackable = true) ∧
    (let s := linked.modBep 1 fun e => { e with pend := some [1] }
     (s.bep 1).pend.isSome = true ∧ (s.bep 1).ackable = false) ∧
    (let i : Item := { kind := .inn, ep := 15, addr := 3, seq := true, bytes := [1], bank := 0, stored := true, sent := true }
     let s := withXlt fun x => { x with items := [i], ackable := some 15 }
     routeOf s 3 = .port 7 ∧ translated s 7 = true ∧ (s.xport 7).ackable = some 15 ∧ s.xlt.prefetch.getLsbD 7 = false ∧
     (∃ i ∈ inItem (s.xport 7) 15, i.sent = true) ∧ (s.xport 7).ackable ≠ some 14) ∧
    (let s := linked.modPort 7 fun p => { p with state := .ena, full := true }
     routeOf s 3 = .port 7 ∧ (s.port 7).state = .ena ∧ (s.port 7).suspReq = false ∧ (s.port 7).full = true) := by decide +kernel

theorem witness_RegisterReads :
    (coreRuns linked = true ∧ configured live .hub = false ∧ configured linked .hub = true ∧ linked.hub.conf = true) ∧
    (regBad ⟨.hub, true, 0, 0x0002, 4⟩ = some .format ∧ regBad ⟨.hub, true, 0, 0xFFFC, 8⟩ = some .range ∧
     regBad ⟨.bridge, true, 0x300, 0x2600, 4⟩ = some .access ∧ regBad ⟨.bridge, true, 0x300, 0x27F8, 8⟩ = none) ∧
    (let s := linked.modHdr (.mvf 3) fun h => { h with siding := true }
     regWalled s ⟨.bridge, true, 0x300, 0x27F8, 8⟩ = true ∧ configured s .bridge = true ∧
     regBad ⟨.bridge, true, 0x300, 0x27F8, 8⟩ = none) ∧
    ((linked.hdr (.mvf 3)).inrst = false ∧ instWalled linked 3 = false ∧ rxOff linked 3 = false ∧
     rxCurrent (linked.inst 3) = none ∧ rxQueue (linked.inst 3) = [] ∧ (linked.inst 3).waitLim = 0 ∧
     (linked.ep .bridge).wait = none) ∧
    (let s := withInst fun m => { m with waitLim := 1 }
     (s.inst 3).waitLim ≠ 0 ∧ rxOff s 3 = false ∧ rxCurrent (s.inst 3) = none ∧ rxQueue (s.inst 3) = []) ∧
    (let s := linked.modHdr (.mvf 3) fun h => { h with en := false }
     (s.hdr (.mvf 3)).inrst = false ∧ rxOff s 3 = true) ∧
    (let s := withInst fun m => { m with rx := [{ state := .queued, id := 4 }], waitLim := 1 }
     (s.inst 3).waitLim ≠ 0 ∧ rxOff s 3 = false ∧ rxCurrent (s.inst 3) = none ∧
     (rxQueue (s.inst 3)).head? = some { state := .queued, id := 4 }) := by decide +kernel

/-- 08 Table 8.10: a tagged REG_WRITE whose data has not come is in the window as incomplete. -/
theorem test_reg_write_check :
    next? (exec (.regWrite .hub 3 0x0540 4 0) linked)
      (fun t => t.hub.tags[0] == ⟨.hub, 3, 0x0540, 4, false, .incomplete, 0⟩ && t.bkp == linked.bkp) = true := by decide +kernel

theorem witness_RegisterWrites :
    (∀ res ∈ [TagResult.complete, .incomplete, .refused],
      let tag : TagEntry := ⟨.hub, 3, 0x0540, 4, false, res, 0⟩
      let s : State := { linked with hub := { linked.hub with tags := linked.hub.tags.set 7 tag } }
      let r : RegReq := ⟨.hub, true, 3, 0x0540, 4⟩
      coreRuns s = true ∧ configured s .hub = true ∧ regWalled s r = false ∧
      (if r.tag = 0 then none else tagFind s r) = some tag ∧ tagSame tag r = true ∧ tagSame tag { r with length := 8 } = false) ∧
    (let r : RegReq := ⟨.bridge, true, 0x300, 0x0540, 4⟩
     configured linked .bridge = true ∧ regWalled linked r = false ∧ (if r.tag = 0 then none else tagFind linked r) = none ∧
     regBad r = some .access) ∧
    (let s := linked.modHdr (.mvf 3) fun h => { h with siding := true }
     let r : RegReq := ⟨.bridge, true, 0x300, 0x2748, 4⟩
     configured s .bridge = true ∧ regWalled s r = true) ∧
    (let r : RegReq := ⟨.hub, true, 3, 0x0540, 4⟩
     configured linked .hub = true ∧ regWalled linked r = false ∧ (if r.tag = 0 then none else tagFind linked r) = none ∧
     regBad r = none ∧ (linked.ep .hub).got.length ≠ (4 : Half).toNat ∧ (linked.ep .hub).regOpen = none) ∧
    (let s := withEp0 fun e => { e with regOpen := some (3, 0x0540, 4) }
     coreRuns s = true ∧ (s.hdr .bkp).inrst = false ∧ (s.ep .hub).regOpen = some (3, 0x0540, BitVec.ofNat 16 (4 * 1)) ∧
     (s.ep .hub).got.length ≠ (4 : Half).toNat) ∧
    configured live .bridge = false ∧
    (linked.hub.conf = true ∧ (31 : Half).toNat < 32 ∧ (linked.hdr .bkp).inrst = false ∧ (31 : Half).toNat % 16 ≠ 0 ∧
     (31 : Half).getLsbD 4 = true ∧ (15 : Half).getLsbD 4 = false ∧ (16 : Half).toNat % 16 = 0 ∧
     tagFind linked ⟨.hub, true, 31, 0x0540, 64⟩ = none) := by decide +kernel

theorem witness_RequestsWithData :
    coreRuns linked = true ∧ judged linked .hub 0x01 none = none ∧ judged linked .bridge 0x20 none = some .unknown ∧
    judged live .hub 0x20 none = some .state ∧ judged linked .hub 0x21 (some .target) = some .target ∧
    judged linked .bridge 0x04 (some .format) = some .format ∧
    (∀ c ∈ [(0x01 : Byte), 0x04, 0x05], judged linked .hub c none = none ∧ judged linked .bridge c none = none) ∧
    (∀ c ∈ [(0x20 : Byte), 0x21, 0x25], judged linked .hub c none = none) ∧
    (epNamed linked .hub 0x0081).isNone = false ∧ (epNamed linked .hub 0x0005).isNone = true ∧
    epFenced (linked.modHdr (.mvf 3) fun h => { h with siding := true }) .bridge 0x008C = true ∧
    (7 : Half).toNat = (7 : Port).val := by decide +kernel

theorem witness_RequestsWithoutData :
    coreRuns linked = true ∧ judged linked .hub 0x02 none = none ∧ judged linked .bridge 0x30 none = none ∧
    judged live .hub 0x08 none = some .state ∧ epNamed linked .hub 0x0081 = some .hub1 ∧
    epNamed linked .bridge 0x008C = some (.br 11) ∧ epNamed linked .hub 0 = some .ep0 ∧ epWaits linked .bridge 0x008C = false ∧
    (∀ c ∈ [(0x03 : Byte), 0x06, 0x07, 0x08, 0x24], judged linked .hub c none = none) ∧
    (∀ c ∈ [(0x02 : Byte), 0x03, 0x06, 0x07], judged linked .bridge c none = none) ∧
    epFenced (linked.modHdr (.mvf 3) fun h => { h with siding := true }) .bridge 0x008C = true ∧
    epWaits (linked.modHdr .mbr fun h => { h with inrst := true }) .bridge 0x008C = true := by decide +kernel

theorem witness_PortFeatures :
    (coreRuns linked = true ∧ linked.hub.conf = true ∧ 8 < (9 : Half).toNat ∧ linked.hub.brResetWait = false ∧
     (linked.ep .hub).inWaits = false) ∧
    (∀ h ∈ [{ linked.hdr (.prt 7) with siding := true }, { linked.hdr (.prt 7) with en := false },
        { linked.hdr (.prt 7) with inrst := true }],
      let s := linked.setHdr (.prt 7) h
      s.hub.conf = true ∧ (s.ep .hub).inWaits = false ∧
      ((s.hdr (.prt 7)).en = false ∨ (s.hdr (.prt 7)).siding = true ∨ (s.hdr (.prt 7)).inrst = true)) ∧
    (Live linked (.prt 7) ∧ (linked.hdr (.prt 7)).en = true ∧ (linked.hdr (.prt 7)).siding = false ∧
     cmdTaken (linked.port 7).state 1 = true ∧ cmdTaken (linked.port 7).state 4 = false) ∧
    (let s := withEp0 fun e => { e with inWaits := true }
     coreRuns s = true ∧ s.hub.conf = true ∧ (s.ep .hub).inWaits = true ∧ (s.ep .hub).stage ≠ .halted ∧
     cmdTaken (s.port 7).state 4 = false ∧ cmdTaken (s.port 7).state 1 = true) ∧
    (let s : State := { linked with hub := { linked.hub with brResetWait := true } }
     coreRuns s = true ∧ s.hub.conf = true ∧ s.hub.brResetWait = true ∧ (s.hdr .mbr).en = true) ∧
    linked.hub.brPres = true ∧ linked.hub.brAddr ≠ 0 := by decide

theorem witness_PortEvents :
    (let s := withPort .dsc
     Live s (.prt 7) ∧ (s.port 7).state = .dsc ∧ (s.port 7).attached = false ∧ (s.port 7).debounce = false) ∧
    (let s := withPort .dsc fun p => { p with debounce := true }
     (s.port 7).state = .dsc ∧ (s.port 7).debounce = true) ∧
    (let s := withPort .dsc fun p => { p with attached := true }
     (s.port 7).state = .dsc ∧ (s.port 7).attached = true) ∧
    (let s := { (withPort .off fun p => { p with pwrPend := true, fell := some 0 }) with lastRise := some 15360, now := 16384 }
     Live s (.prt 7) ∧ (s.port 7).state = .off ∧ (s.port 7).pwrPend = true ∧ held s (portBit 7) = false ∧
     (s.lastRise.all fun x => decide (x + 1024 ≤ s.now)) = true ∧ ((s.port 7).fell.all fun x => decide (x + 16384 ≤ s.now)) = true ∧
     (∀ m : Port, m < 7 → (s.port m).pwrPend = false) ∧
     ((some 15361 : Option Nat).all fun x => decide (x + 1024 ≤ s.now)) = false) ∧
    (let s := (withPort .off fun p => { p with pwrPend := true }).modPort 6 fun p => { p with pwrPend := true }
     Live s (.prt 7) ∧ (6 : Port) < 7 ∧ (s.port 6).pwrPend = true ∧ (s.port 6).fell = none) ∧
    (let s := withPort .pwg
     Live s (.prt 7) ∧ (s.port 7).state = .pwg ∧ (s.port 7).watched = false) ∧
    (Live (withPort .sid) (.prt 7) ∧ ((withPort .sid).port 7).state = .sid) ∧
    (let s := withPort .pwg fun p => { p with watched := true }
     (s.hdr (.prt 7)).en = true ∧ (s.hdr (.prt 7)).siding = false ∧ (s.port 7).state ≠ .off ∧ (s.port 7).state ≠ .sid ∧
     (s.port 7).watched = true) := by decide

theorem witness_PortCommands :
    (∀ st ∈ [PState.dsc, .rst, .ena, .sus, .rsm, .dsb], ∀ p ∈ [true, false],
      let s := withPort st fun q => { q with power := p }
      Live s (.prt 7) ∧ (s.hdr (.prt 7)).en = true ∧ (s.port 7).state = st ∧ (s.port 7).power = p ∧
      (s.hdr (.prt 7)).siding = false) ∧
    (let s := withPort .off
     Live s (.prt 7) ∧ (s.port 7).state = .off ∧ (s.port 7).pwrPend = false) ∧
    (let s := withPort .ena
     (s.port 7).suspReq = false ∧ (s.port 7).sinceFs.getD 0 < 3) ∧
    (let s := withPort .ena fun p => { p with suspReq := true, sinceFs := some 2 }
     (s.port 7).suspReq = true ∧ (s.port 7).sinceFs.getD 0 < 3) ∧
    (let s := withPort .ena fun p => { p with suspReq := true, sinceFs := some 3 }
     (s.port 7).suspReq = true ∧ 3 ≤ (s.port 7).sinceFs.getD 0) ∧
    (let s := withPort .sus
     held s (portBit 7) = false ∧
     let t : State := { s with pwr := { s.pwr with round := .voting, consented := BitVec.allOnes 21 } }
     Live t (.prt 7) ∧ (t.port 7).state = .sus ∧ held t (portBit 7) = true) ∧
    (Live State.reset (.prt 7) ∧ (State.reset.hdr (.prt 7)).en = false) ∧
    (((withPort .sid).port 7).state = .sid ∧ ((withPort .rsm).port 7).state ≠ .ena ∧ ((withPort .dsc).port 7).state = .dsc) := by
  decide +kernel

theorem witness_PortResetPhases :
    (∀ d ∈ [PDrive.forced, .window, .answer, .errorLow],
      let s := withPort .rst fun p => { p with drive := d }
      Live s (.prt 7) ∧ (s.port 7).state = .rst ∧ (s.port 7).drive = d ∧ (s.port 7).speedNow ≠ 1) ∧
    (let s := withPort .rst fun p => { p with drive := .window, speedNow := 1 }
     (s.port 7).speedNow = 1) ∧
    dclkRuns (withPort .dsc) 7 = true ∧ dclkRuns (withPort .pwg) 7 = false := by decide

theorem witness_PortPresence :
    (∀ st ∈ [PState.ena, .sus, .dsb],
      let s := withPort st fun p => { p with misses := 3 }
      Live s (.prt 7) ∧ (s.port 7).state = st ∧ (s.port 7).misslim ≠ 0 ∧ (s.port 7).misslim ≤ (s.port 7).misses + 1 ∧
      0 + 1 < (s.port 7).misslim) ∧
    (let s := withPort .ena fun p => { p with misses := 2 }
     (s.port 7).misses + 1 < (s.port 7).misslim ∧ (s.port 7).misses + 1 ≤ 15) ∧
    (let s := withPort .ena fun p => { p with misses := 14, misslim := 0 }
     (s.port 7).misslim = 0 ∧ (s.port 7).misses + 1 ≤ 15) ∧
    (let s := withPort .ena fun p => { p with sinceFs := some 0 }
     Live s (.prt 7) ∧ (s.port 7).sinceFs.isSome = true ∧ (s.port 7).held = false) ∧
    (let s := withPort .ena fun p => { p with sinceFs := some 0, held := true }
     Live s (.prt 7) ∧ (s.port 7).sinceFs.isSome = true ∧ (s.port 7).held = true ∧ held s (portBit 7) = false) ∧
    ((withPort .ena).port 7).sinceFs = none ∧
    (∀ d ∈ [PDrive.quiet, .resume],
      let s := withPort .rsm fun p => { p with drive := d }
      Live s (.prt 7) ∧ (s.port 7).state = .rsm ∧ (s.port 7).drive = d) ∧
    (∀ w ∈ [true, false],
      let s := withPort .sus fun p => { p with wakeen := w }
      Live s (.prt 7) ∧ (s.port 7).state = .sus ∧ held s (portBit 7) = false ∧ (s.port 7).wakeen = w) := by decide +kernel

/-- A posted IN fetch of endpoint 15, and a stored OUT item of endpoint 2. -/
def inFetch : Item := { kind := .inn, ep := 15, addr := 3, seq := true, bytes := [], bank := 0 }
def outItem : Item := { kind := .out, ep := 2, addr := 3, seq := false, bytes := [7], bank := 0 }

theorem witness_TranslatorPackets :
    (let s := withXlt id
     XltHears s 7 3 ∧ outFree (s.xport 7) ≠ 0 ∧ pickBank (s.xport 7).ob (s.xport 7).obLast = some 0 ∧
     (s.xport 7).outHalt.getLsbD 15 = false ∧ (s.xport 7).lastSeq[15] ≠ some true ∧ marked (s.xport 7) (grp true 15) = false ∧
     inItem (s.xport 7) 15 = none ∧ inFree (s.xport 7) ≠ 0 ∧ pickBank (s.xport 7).ib (s.xport 7).ibLast = some 0) ∧
    (64 < (List.replicate 65 (0 : Byte)).length ∧ (List.replicate 64 (0 : Byte)).length ≤ 64) ∧
    (let s := withXlt fun x => { x with outHalt := 0x8000, inHalt := 0x8000 }
     XltHears s 7 3 ∧ (s.xport 7).outHalt.getLsbD 15 = true ∧ marked (s.xport 7) (grp true 15) = true) ∧
    (let s := withXlt fun x => { x with lastSeq := x.lastSeq.set 15 (some true), lastSetup := some (true, [1]) }
     XltHears s 7 3 ∧ (s.xport 7).lastSeq[15] = some true ∧ (s.xport 7).lastSetup = some (true, [1])) ∧
    (let s := withXlt fun x => { x with
       ob := Vector.replicate 2 ⟨.closed, 8⟩, ib := Vector.replicate 2 ⟨.closed, 8⟩ }
     XltHears s 7 3 ∧ outFree (s.xport 7) = 0 ∧ inFree (s.xport 7) = 0) ∧
    (let s := withXlt fun x => { x with items := [inFetch] }
     XltHears s 7 3 ∧ inItem (s.xport 7) 15 = some inFetch ∧ inFetch.stored = false) ∧
    (let i : Item := { inFetch with stored := true, bytes := [1, 2] }
     let s := withXlt fun x => { x with items := [i] }
     XltHears s 7 3 ∧ inItem (s.xport 7) 15 = some i ∧ i.stored = true ∧ (0 : BitVec 10).toNat + 1 < i.bytes.length ∧
     i.bytes.length ≤ (1 : BitVec 10).toNat + 1 ∧ dataFits s i.bytes.length = true ∧ i.sent = false ∧
     s.xlt.prefetch.getLsbD 7 = false) ∧
    (let i : Item := { inFetch with stored := true, bytes := [1, 2], sent := true }
     let s := withXlt fun x => { x with items := [i] }
     XltHears s 7 3 ∧ inItem (s.xport 7) 15 = some i ∧ i.sent = true ∧ true = i.seq ∧ false ≠ i.seq) ∧
    (routeOf linked 4 ≠ .port 7 ∧ linked.pwr.round = .none ∧ linked.upl.probing = false ∧ (linked.hdr .ttb).inrst = false) ∧
    (let s := (withXlt id).modHdr .xlt fun h => { h with inrst := true }
     let t : State := { s with upl := { s.upl with txn := { s.upl.txn with target := .xlt 7 } } }
     coreRuns t = true ∧ routeOf t 3 = .port 7 ∧ t.upl.txn.target = .xlt 7 ∧ (t.hdr .xlt).inrst = true ∧
     (t.port 7).state = .ena ∧ (t.port 7).full = false ∧ (t.port 7).suspReq = false) := by
  refine ⟨?_, ?_, ?_, ?_, ?_, ?_, ?_, ?_, ?_, ?_⟩ <;> decide +kernel

theorem witness_BasicLane :
    (let s := withXlt fun x => { x with items := [inFetch, outItem], backoff := [inFetch.grp], fsWait := true }
     coreRuns s = true ∧ translated s 7 = true ∧ laneUsed (s.xport 7) = false ∧ held s 11 = false ∧
     readySplit (s.xport 7).backoff [] (s.xport 7).items = some ([inFetch], outItem, []) ∧ (s.xport 7).fsWait = true) ∧
    (let s := withXlt id
     translated s 7 = true ∧ laneUsed (s.xport 7) = false ∧ readySplit (s.xport 7).backoff [] (s.xport 7).items = none ∧
     Live s .xlt ∧ translated s 0 = false) ∧
    ((∀ x ∈ [inFetch] ++ [outItem], x.onLane = false) ∧ outItem.isIn = false ∧ outItem.kind ≠ .setup ∧ outItem.kind = .out ∧
     inFetch.kind = .inn ∧ inFetch.isIn = true ∧ inFetch.dropped = false) ∧
    (let s : State := { (withXlt id) with xlt := { (withXlt id).xlt with retryLim := 2 } }
     0 + 1 < s.xlt.retryLim ∧ s.xlt.retryLim ≠ 0 ∧ s.xlt.retryLim ≤ 1 + 1 ∧ false = (s.xport 7).inExp[15] ∧
     true ≠ (s.xport 7).inExp[15]) ∧
    ((List.replicate 64 (0 : Byte)).length ≤ min 64 (inFetch.len + 1) ∧ ¬ (List.replicate 65 (0 : Byte)).length ≤ min 64 (inFetch.len + 1) ∧
     ({ outItem with kind := .sout } : Item).kind = .sout ∧ ({ inFetch with kind := .sin } : Item).isIn = true) ∧
    (let i : Item := { outItem with retries := 1 }
     let s := withXlt fun x => { x with items := [i, inFetch] }
     Live s .xlt ∧ translated s 7 = true ∧ i ∈ (s.xport 7).items ∧ i.onLane = false ∧ i.delivered = true) := by decide +kernel

theorem witness_LineRecoveryAndSelection :
    (let s := live.modChan 1 fun j => { j with bus := .recovery, cenAuto := true }
     coreRuns s = true ∧ (s.chan 1).bus = .recovery ∧ held s (chanBit 1) = false ∧ (s.chan 1).firstRcv = true ∧
     (s.chan 1).cenAuto = true ∧ active s (.jx 1) = true ∧ (s.chan 1).busOff = false ∧ (s.chan 1).listen = false ∧
     (s.chan 1).cenRun = false) ∧
    (let s := live.modChan 1 fun j => { j with bus := .recovery }
     (s.chan 1).bus = .recovery ∧ (s.chan 1).cenAuto = false ∧ (live.chan 1).bus ≠ .recovery ∧ hears live 1 = false ∧
     held { s with pwr := { s.pwr with consented := BitVec.allOnes 21 } } (chanBit 1) = true) ∧
    (let s := withChan id
     coreRuns s = true ∧ hears s 1 = true ∧ (s.chan 1).wire = .none ∧ (s.chan 1).bus = .idle ∧
     (s.chan 1).listenNow = false ∧ (s.chan 1).busOff = false ∧ (s.chan 1).waitBits = 0 ∧ held s (chanBit 1) = false ∧
     (s.chan 1).cenPend = false ∧ candidate s 1 = none) ∧
    (∀ f ∈ [fun j : Jx => { j with listenNow := true }, fun j => { j with busOff := true }, fun j => { j with waitBits := 1 }],
      let s := withChan f
      hears s 1 = true ∧ (s.chan 1).bus = .idle ∧ held s (chanBit 1) = false ∧ (s.chan 1).wire = .none ∧
      ¬ ((s.chan 1).busOff = false ∧ (s.chan 1).listenNow = false ∧ (s.chan 1).waitBits = 0)) ∧
    (let s := withChan fun j => { j with cenPend := true }
     hears s 1 = true ∧ (s.chan 1).bus = .idle ∧ (s.chan 1).waitBits = 0 ∧ (s.chan 1).cenPend = true) ∧
    (let s := withInst fun m => m.setBuf 5 { state := .full, id := 4 }
     hears s 1 = true ∧ (s.chan 1).waitBits = 0 ∧ (s.chan 1).cenPend = false ∧ candidate s 1 = some (3, bufIx 1 2)) := by decide

/-- Buffer B2 of instance 3 is the hub's frame on channel B's wire, in a state. -/
def onWire (b : TxBuf) (f : Jx → Jx := id) : State :=
  (withInst fun m => m.setBuf 5 b).modChan 1 fun j => f { j with wire := .buf 3 2, bus := .transmitting }

theorem witness_AttemptOutcomes :
    (let s := onWire { state := .wire, errs := 1 } fun j => { j with tec := 247 }
     let e : ErrAt := ⟨.form, 5, 0⟩
     coreRuns s = true ∧ s.mbr.mirNow = false ∧ (s.chan 1).wire = .buf 3 2 ∧ ((s.inst 3).buf (bufIx 1 2)).state = .wire ∧
     ((s.inst 3).buf (bufIx 1 2)).canreq = false ∧ (s.chan 1).busOff = false ∧ (s.chan 1).listenNow = false ∧
     (s.chan 1).tec + 8 ≤ 255 ∧ e.kind ≠ .ack ∧ 2 ≤ e.field.toNat ∧ (⟨.bit, 1, 0⟩ : ErrAt).field.toNat < 2 ∧
     (s.inst 3).errlim = 0) ∧
    (let s := onWire { state := .wire } fun j => { j with tec := 128 }
     (⟨.ack, 6, 0⟩ : ErrAt).kind = .ack ∧ 2 ≤ (⟨.ack, 6, 0⟩ : ErrAt).field.toNat ∧ passive (s.chan 1) = true ∧
     (s.chan 1).wire = .buf 3 2) ∧
    (let s := onWire { state := .wire, canreq := true }
     ((s.inst 3).buf (bufIx 1 2)).canreq = true) ∧
    (let s := (onWire { state := .wire, errs := 1 }).modInst 3 fun m => { m with errlim := 2 }
     (s.inst 3).errlim ≠ 0 ∧ (s.inst 3).errlim ≤ ((s.inst 3).buf (bufIx 1 2)).errs + 1 ∧
     ((s.inst 3).buf (bufIx 1 2)).canreq = false) ∧
    (let s := (onWire { state := .wire }).modInst 3 fun m => { m with errlim := 2 }
     ((s.inst 3).buf (bufIx 1 2)).errs + 1 < (s.inst 3).errlim) ∧
    (let s := onWire { state := .orphan }
     ((s.inst 3).buf (bufIx 1 2)).state = .orphan) ∧
    ((withChan id).chan 1).wire = .none := by decide

theorem witness_ErrorsAndBusOff :
    (let s := withChan fun j => { j with bus := .receiving, rxOpen := true, recv := 127 }
     let e : ErrAt := ⟨.stuff, 2, 0⟩
     let l : ErrAt := ⟨.form, 8, 0⟩
     Live s (.jx 1) ∧ s.parBad = [] ∧ hears s 1 = true ∧ (s.chan 1).wire = .none ∧ e.kind ≠ .bit ∧ e.kind ≠ .ack ∧
     (s.chan 1).wasTx = false ∧ e.kind ≠ .form ∧ l.kind = .form ∧ (l.field = 7 ∨ l.field = 8) ∧ (s.chan 1).rxOpen = true ∧
     (s.chan 1).bus ≠ .errorSig ∧ (s.chan 1).lateAcc = false ∧ (s.chan 1).busOff = false) ∧
    (let s := withChan fun j => { j with tec := 248, wasTx := true }
     Live s (.jx 1) ∧ hears s 1 = true ∧ (s.chan 1).wasTx = true ∧ (s.chan 1).busOff = false ∧ (s.chan 1).listenNow = false ∧
     255 < (s.chan 1).tec + 8) ∧
    (hears live 1 = false ∧ (⟨.bit, 0, 0⟩ : ErrAt).kind = .bit) ∧
    (let s := withChan fun j => { j with busOff := true }
     Live s (.jx 1) ∧ (s.chan 1).busOff = true ∧ (s.chan 1).counting = false) ∧
    (∀ k ∈ [127, 128],
      let s := withChan fun j => { j with busOff := true, counting := true, runs := k }
      Live s (.jx 1) ∧ hears s 1 = true ∧ (s.chan 1).busOff = true ∧ (s.chan 1).counting = true ∧ (s.chan 1).runs = k) := by decide

theorem witness_Census :
    (let s := withChan id
     Live s (.jx 1) ∧ (s.chan 1).cenRun = false ∧ active s (.jx 1) = true ∧ (s.chan 1).bus ≠ .stopped ∧
     (s.chan 1).bus ≠ .recovery ∧ (s.chan 1).busOff = false ∧ (s.chan 1).listen = false ∧ (s.chan 1).listenNow = false ∧
     hears s 1 = true ∧ (s.chan 1).rxOpen = false ∧ (s.chan 1).bus ≠ .errorSig) ∧
    (Live live (.jx 1) ∧ (live.chan 1).bus = .stopped) ∧
    (let s := withChan fun j => { j with
       bus := .receiving, rxOpen := true, rxId := 1, cenRun := true, cenLook := true,
       cenTable := List.replicate 31 ⟨0, 0⟩, cenTries := 2 }
     hears s 1 = true ∧ (s.chan 1).cenRun = true ∧ (s.chan 1).cenLook = true ∧ (s.chan 1).rxOpen = true ∧
     (s.chan 1).bus ≠ .errorSig ∧ (s.chan 1).rxId = 1 ∧ (s.chan 1).cenTable.length < 32 ∧
     (s.chan 1).cenTries + 1 ≤ (s.chan 1).cenRetry) ∧
    (let s := (withChan fun j => { j with
       bus := .errorSig, lateAcc := true, rxOpen := true, rxId := 1, cenRun := true, cenLook := true,
       cenTable := List.replicate 32 ⟨0, 0⟩, cenTries := 3 }).modHdr (.jx 1) fun h => { h with evtEn := 0x80 }
     hears s 1 = true ∧ (s.chan 1).cenRun = true ∧ (s.chan 1).cenLook = true ∧ (s.chan 1).lateAcc = true ∧
     (s.hdr (.jx 1)).evtEn.getLsbD 7 = true ∧ 32 ≤ (s.chan 1).cenTable.length ∧
     (s.chan 1).cenRetry < (s.chan 1).cenTries + 1) := by decide

theorem witness_TxSubmit :
    (let s := withInst fun m => { m with hdrId := 4, hdrLen := 64 }
     Live s (.mvf 3) ∧ 4 ≤ (s.inst 3).hdrId.toNat ∧ (s.inst 3).hdrLen.toNat ≤ 64 ∧ (∀ k, ((s.inst 3).buf k).state = .free) ∧
     Serves s 3) ∧
    (let s := withInst fun m => { m with hdrId := 3 }
     Live s (.mvf 3) ∧ (s.inst 3).hdrId.toNat < 4) ∧
    (let s := withInst fun m => { m with hdrId := 4, hdrLen := 65 }
     4 ≤ (s.inst 3).hdrId.toNat ∧ 64 < (s.inst 3).hdrLen.toNat) ∧
    (let s := withInst fun m => { m.setBuf 5 { state := .done } with hdrId := 4 }
     4 ≤ (s.inst 3).hdrId.toNat ∧ ((s.inst 3).buf 5).state ≠ .free) ∧
    (let s := (withInst fun m => { m with hdrId := 4 }).modHdr .mbr fun h => { h with en := false }
     Live s (.mvf 3) ∧ ¬ Serves s 3 ∧ (s.hdr .mbr).siding = false) := by decide

/-- The Mirror pair 2 of instance 3: its copy on channel B on the wire, its copy on channel A FULL off service. -/
def mirrorPair : State :=
  let s := (onWire { state := .wire, att := 1 }).modInst 3 fun m => m.setBuf 2 { state := .full }
  { (s.modChan 0 fun j => { j with bus := .stopped }) with mbr := { s.mbr with mirNow := true } }

theorem witness_TxCancel :
    (let s := withInst fun m => (m.setBuf 5 { state := .full }).setBuf 2 { state := .wire }
     Live s (.mvf 3) ∧ s.mbr.mirNow = false ∧ (∀ d, inSvc s d = true) ∧ ((s.inst 3).buf 5).state = .full ∧
     ((s.inst 3).buf 2).state = .wire) ∧
    (Live mirrorPair (.mvf 3) ∧ mirrorPair.mbr.mirNow = true ∧ (mirrorPair.chan 1).wire = .buf 3 2 ∧
     ((mirrorPair.inst 3).buf (bufIx 1 2)).state = .wire ∧ ((mirrorPair.inst 3).buf (sibling (bufIx 1 2))).state = .full ∧
     inSvc mirrorPair (bufChan (sibling (bufIx 1 2))) = false ∧ (mirrorPair.chan 1).busOff = false ∧
     inSvc mirrorPair 1 = true ∧
     ∀ j : Inst, ∀ x : Fin 6, j ≠ 3 ∨ (x ≠ 5 ∧ x ≠ 2) → ((mirrorPair.inst j).buf x).state = .free) := by decide

theorem witness_TxBulkRecords :
    (Heard linked .bridge ∧ linked.hub.brConf = true ∧ (linked.bep (epOut 3)).halted = false ∧
     (linked.hdr (.mvf 3)).inrst = false ∧ (linked.hdr .mbr).inrst = false ∧ siding linked (.mvf 3) = false ∧
     (linked.bep (epOut 3)).seq = false ∧ (linked.bep (epOut 3)).fresh = false ∧ (linked.hdr (.mvf 3)).en = true ∧
     (linked.hdr .mbr).en = true ∧ (List.replicate 512 (0 : Byte)).length ≤ 512) ∧
    (let s := withInst fun m => { m with staging := List.replicate 28 ⟨4, List.replicate 64 0, 0, 0, 0⟩ }
     Heard s .bridge ∧ ((s.inst 3).staging.map fun r => 8 + 4 * ((r.data.length + 3) / 4)).sum + 32 ≤ 2048 ∧
     ¬ ((s.inst 3).staging.map fun r => 8 + 4 * ((r.data.length + 3) / 4)).sum + 33 ≤ 2048) ∧
    (let s := linked.modHdr .mbr fun h => { h with siding := true }
     Heard s .bridge ∧ siding s (.mvf 3) = true) ∧
    (let s : State := { linked with hub := { linked.hub with brConf := false } }
     Heard s .bridge ∧ s.hub.brConf = false) ∧
    (let w0 : Word := 0x40000004; let w1 : Word := 0x00000500
     (w0.extractLsb' 24 7).toNat = 64 ∧ w0.getLsbD 31 = false ∧ w1.extractLsb' 3 5 = 0 ∧ w1.extractLsb' 16 16 = 0 ∧
     4 ≤ (w0.extractLsb' 0 24).toNat) ∧
    (let w0 : Word := 0x41000003; 64 < (w0.extractLsb' 24 7).toNat ∧ (w0.extractLsb' 0 24).toNat < 4) := by
  refine ⟨?_, ?_, ?_, ?_, ?_, ?_⟩ <;> decide +kernel

theorem witness_TxStagingAndCompletion :
    (let r : TxRec := ⟨4, [1], 1, 2, 9⟩
     let s := withInst fun m => { m with staging := [r] }
     coreRuns s = true ∧ (s.inst 3).staging.head? = some r ∧ Serves s 3 ∧ held s 14 = false ∧
     ((s.inst 3).buf (bufIx 1 2)).state = .free ∧ r.buf.toNat = (2 : Fin 3).val ∧ s.mbr.mirNow = false) ∧
    (let r : TxRec := ⟨4, [1], 1, 2, 9⟩
     let s := withInst fun m => { m.setBuf 5 { state := .full } with staging := [r] }
     (s.inst 3).staging.head? = some r ∧ ((s.inst 3).buf (bufIx 1 2)).state ≠ .free) ∧
    (let c : CRec := ⟨.sent, false, 0, 0, 0, 0, true, false⟩
     let s := withInst fun m => { (m.setBuf 5 { state := .done, status := some .sent, doneAt := 1 }).setBuf 0
       { state := .done, status := some .cancelled, doneAt := 2 } with cq := List.replicate 7 c }
     coreRuns s = true ∧ (s.inst 3).cq.length < 8 ∧ s.mbr.mirNow = false ∧ ((s.inst 3).buf 5).state = .done ∧
     ((s.inst 3).buf 5).status.isSome = true ∧
     (∀ j, j ≠ 5 → ((s.inst 3).buf j).state = .done → ((s.inst 3).buf 5).doneAt < ((s.inst 3).buf j).doneAt) ∧
     (s.hdr (.mvf 3)).inrst = false) ∧
    (let c : CRec := ⟨.sent, false, 0, 0, 0, 0, true, false⟩
     let s := withInst fun m => { m with cq := List.replicate 8 c }
     8 ≤ (s.inst 3).cq.length) ∧
    (let t := withInst fun m => (m.setBuf 5 { state := .done, status := some .sent }).setBuf 2
       { state := .done, status := some .sent }
     let s : State := { t with mbr := { t.mbr with mirNow := true } }
     (s.inst 3).cq.length < 8 ∧ s.mbr.mirNow = true ∧ (2 : Fin 6).val < 3 ∧ ((s.inst 3).buf 2).state = .done ∧
     ((s.inst 3).buf (sibling 2)).state = .done ∧
     ∀ j, j ≠ 2 → j ≠ sibling 2 → ((s.inst 3).buf j).state = .free) := by
  refine ⟨?_, ?_, ?_, ?_, ?_⟩ <;> decide

/-! ### Frames (13) -/

/-- Entry 255 of channel B's list: VALID, a range of the one identifier 0xFFFFFF, with the action `a`; the channel holds a frame with
that identifier. -/
def withEntry (a : BitVec 11) (f : Mbr → Mbr := id) : State :=
  let w1 : Word := 0x80000000 ||| (a.setWidth 32 <<< 18) ||| 0xFFFF
  let s := withChan fun j => { j with bus := .receiving, rxId := 0xFFFFFF, rxOpen := true }
  { s with mem := memSetWord (memSetWord [] 0x3FF8 0xFFFFFFFF) 0x3FFC w1, mbr := f s.mbr }

/-- Zero bytes with the CRC that the identifier 0xFFFFFF gives them. -/
def frame (n : Nat) : RxFrame :=
  let d := List.replicate n 0
  ⟨d, crc21 0xFFFFFF d, [], false, false⟩

/-- The conditions under which the channel hands a frame over. -/
def handsOver (s : State) (c : Chan) (f : RxFrame) : Bool :=
  coreRuns s && hears s c && (s.chan c).rxOpen && ((s.chan c).bus != .errorSig || (s.chan c).lateAcc) &&
  decide (f.data.length ≤ 64) && f.crc == crc21 (s.chan c).rxId f.data

theorem witness_filter :
    FilterMatches (withEntry 8) 1 0xFFFFFF 255 ∧ (∀ k : Fin 256, ¬ FilterMatches (withChan id) 1 0xFFFFFF k.val) := by
  decide +kernel

theorem witness_RxHandOver :
    (let s := withEntry 8
     handsOver s 1 (frame 2) = true ∧ passive (s.chan 1) = false ∧ s.parBad = [] ∧ s.mbr.mirNow = false ∧
     ¬ ((s.chan 1).rxId = 0 ∨ (s.chan 1).rxId = 1 ∨ (s.chan 1).rxId = 3) ∧ (s.chan 1).stamp = none ∧ (s.chan 1).sofAt ≤ s.now) ∧
    Decided (withEntry 8) 1 (frame 2) (some 255) 8 ∧
    (accepts 8 3 = true ∧ (∀ n, n ≠ 3 → accepts 8 n = false) ∧ (8 : BitVec 11).extractLsb' 7 2 = 0 ∧ (frame 2).damaged = false) ∧
    (let s := withEntry 8
     RoomForAll s 8 ∧ Keeps s 3 ∧ Room s 3) ∧
    (let s := (withEntry 8).modInst 3 fun m => { m with rx := List.replicate 128 {} }
     Keeps s 3 ∧ ¬ Room s 3) ∧
    (let s := (withEntry 8).modHdr .mbr fun h => { h with en := false }
     ¬ Keeps s 3 ∧ (s.hdr (.mvf 3)).inrst = false ∧ (s.hdr .mbr).inrst = false) ∧
    (∀ n, accepts 0 n = false) ∧
    (let f : RxFrame := { frame 2 with badWords := [511] }
     let s := (withChan fun j => { j with rxId := 0xFFFFFF }).modHdr (.jx 1) fun h => { h with sev := 1 }
     f.badWords = [511] ∧ f.damaged = false ∧ s.flmOld = [] ∧ s.mbr.defAct[(1 : Chan)] = 0 ∧ s.flt.src.getLsbD 10 = false ∧
     s.flt.mode.getLsbD 10 = false ∧ (s.hdr (.jx 1)).sev.toNat < 2 ∧
     ({ s with flt := { s.flt with mode := 0x400 } } : State).flt.mode.getLsbD 10 = true) ∧
    (hears live 1 = false ∧ (live.chan 1).rxOpen = false) ∧
    ((List.replicate 64 (0 : Byte)).length ≤ 64 ∧ 64 < (List.replicate 65 (0 : Byte)).length) := by
  refine ⟨?_, ?_, ?_, ?_, ?_, ?_, ?_, ?_, ?_, ?_⟩ <;> decide +kernel

/-- The copy of an equal frame, at the edge of its window and beyond it. -/
theorem witness_RxDuplicates :
    (let d : DupCopy := ⟨0xFFFFFF, [0], (frame 1).crc, 0, true⟩
     let f := frame 1
     let t := withEntry 0x088 fun m => { m with dup := m.dup.set 1 (some d) }
     let s : State := { t.modChan 1 fun j => { j with sofAt := 1298 * 4096 } with now := 1299 * 4096 }
     handsOver s 1 f = true ∧ Decided s 1 f (some 255) 0x088 ∧ RoomForAll s 0x088 ∧ s.mbr.dup[(1 : Chan)] = some d ∧
     s.mbr.mirNow = false ∧ 4 ≤ (s.chan 1).rxId.toNat ∧ f.damaged = false ∧ f.copyDamaged = false ∧
     (0x088 : BitVec 11).extractLsb' 7 2 = 1 ∧ (0x108 : BitVec 11).extractLsb' 7 2 ≠ 1 ∧
     (0x108 : BitVec 11).extractLsb' 7 2 ≠ 0 ∧ d.live = true ∧ d.id = (s.chan 1).rxId ∧ d.data = f.data ∧ d.crc = f.crc ∧
     (s.chan 1).sofAt ≤ d.at_ + 1298 * s.clk.divNow[(1 : Chan)] ∧
     ¬ (s.chan 1).sofAt + 1 ≤ d.at_ + 1298 * s.clk.divNow[(1 : Chan)]) ∧
    (let r : MirRec := ⟨0xFFFFFF, 1, (frame 1).crc, 0, false⟩
     let f := frame 1
     let s := withEntry 8 fun m => { m with mirNow := true, mir := (m.mir.set 0 [r]).set 1 (List.replicate 8 r) }
     handsOver s 1 f = true ∧ s.mbr.mirNow = true ∧ s.mbr.mir[(0 : Chan)] = [r] ∧ r.used = false ∧ r.id = (s.chan 1).rxId ∧
     r.len = f.data.length ∧ r.crc = f.crc ∧ (s.chan 1).sofAt ≤ r.at_ + 1298 * s.clk.divNow[(1 : Chan)] ∧
     s.mbr.mir[(1 : Chan)].length = 8 ∧ s.mbr.mirAct = false ∧ (8 : BitVec 11).extractLsb' 7 2 = 0) := by
  refine ⟨⟨?_, ?_, ?_, ?_⟩, ?_⟩ <;> decide +kernel

/-- An entry with an arrival number and an identifier. -/
def ent (arr : Nat) (st : RxState) : RxEntry := { state := st, id := 0x000010, arr := arr }

theorem witness_RxQueues :
    (let e := ent 31 .alloc
     let s := withInst fun m => { m with rx := (List.range 31).map (fun k => ent k .queued) ++ [e] }
     let m := s.inst 3
     coreRuns s = true ∧ e ∈ m.rx ∧ e.state = .alloc ∧ (m.rx.map (·.arr)).Nodup ∧ e.aged = false ∧
     (∀ x ∈ m.rx, x.state = .alloc → e.arr ≤ x.arr) ∧ (∀ x ∈ rxQueued m, x.arr < e.arr) ∧ m.qorg = false ∧
     (rxQueued m).length < 32) ∧
    (let e := ent 32 .alloc
     let s := withInst fun m => { m with rx := (List.range 32).map (fun k => ent k .queued) ++ [e] }
     let m := s.inst 3
     e ∈ m.rx ∧ (m.rx.map (·.arr)).Nodup ∧ m.qorg = false ∧ (rxQueued m).length = 32 ∧
     (rxStage (rxQueue m) { e with state := .queued, bank := 0 }).getLast? = some { e with state := .queued, bank := 0 }) ∧
    (let s := withInst fun m => { m with qorg := true, bankSize := 2, rx := [{ ent 0 .queued with bank := 1 }, ent 1 .alloc] }
     let m := s.inst 3
     m.qorg = true ∧ ((rxQueued m).filter fun x => x.bank = 1).length < 2) ∧
    (let s := withInst fun m => { m with qorg := true, bankSize := 1, rx := [{ ent 0 .queued with bank := 1 }, ent 1 .alloc] }
     let m := s.inst 3
     m.qorg = true ∧ 1 ≤ ((rxQueued m).filter fun x => x.bank = 1).length) ∧
    (let e := { ent 0 .queued with age := 16 }
     let s := withInst fun m => { m with rx := [e] }
     let m := s.inst 3
     coreRuns s = true ∧ m.qorg = false ∧ e ∈ m.rx ∧ e.state = .queued ∧ e.aged = false ∧ max 1 m.ageLim ≤ e.age ∧
     (m.rx.map (·.arr)).Nodup) := by
  refine ⟨?_, ?_, ?_, ?_, ?_⟩ <;> decide +kernel

theorem witness_RxWindow :
    (let s := withInst fun m => { m with rx := [ent 0 .queued, ent 1 .queued] }
     let m := s.inst 3
     Live s (.mvf 3) ∧ rxOff s 3 = false ∧ (∀ x ∈ m.rx, x.state ≠ .current) ∧ (m.rx.map (·.arr)).Nodup ∧
     (rxQueue m).head? = some (ent 0 .queued) ∧ (rxQueue m).tail.head? = some (ent 1 .queued) ∧ m.qorg = false ∧
     (rxQueue { m with rx := m.rx.filter fun y => !decide (y.arr = 0) }).head? = some (ent 1 .queued) ∧ m.cmode = false) ∧
    (Live linked (.mvf 3) ∧ rxQueue (linked.inst 3) = []) ∧
    (let s := linked.modHdr (.mvf 3) fun h => { h with siding := true }
     Live s (.mvf 3) ∧ rxOff s 3 = true) ∧
    (let s := withInst fun m => { m with cmode := true, rx := [ent 0 .current] }
     Live s (.mvf 3) ∧ (s.inst 3).cmode = true ∧ (∃ x ∈ (s.inst 3).rx, x.state = .current)) ∧
    (let s := withInst fun m => { m with rx := (List.range 33).map fun k => ent k .read }
     let m := s.inst 3
     m.cmode = false ∧ m.qorg = false ∧ (m.rx.map (·.arr)).Nodup ∧
     32 < (m.rx.filter fun x => x.state = .queued ∨ x.state = .read).length ∧
     (m.rx.filter fun x => x.state = .queued ∨ x.state = .read).length < 65536) := by
  refine ⟨?_, ?_, ?_, ?_, ?_⟩ <;> decide +kernel

theorem witness_RxAck :
    (let s := withInst fun m => { m with rx := [{ ent 0 .read with dnum := 1 }, { ent 1 .read with dnum := 0xFFFF }] }
     Live s (.mvf 3) ∧ (s.inst 3).cmode = false ∧ ((0 : Half).toNat + 65536 - (0xFFFF : Half).toNat) % 65536 < 32768 ∧
     ¬ ((0 : Half).toNat + 65536 - (1 : Half).toNat) % 65536 < 32768) ∧
    (let s := withInst fun m => { m with cmode := true }
     Live s (.mvf 3) ∧ (s.inst 3).cmode = true) := by decide

theorem witness_RxEndpoints :
    (let s := withInst fun m => { m with rx := [{ ent 0 .queued with urg := true }] }
     let m := s.inst 3
     Heard s .bridge ∧ s.hub.brConf = true ∧ (s.hdr (.mvf 3)).inrst = false ∧ (s.hdr .mbr).inrst = false ∧
     siding s (.mvf 3) = false ∧ (s.bep (epUrg 3)).halted = false ∧ rxOff s 3 = false ∧ (s.bep (epUrg 3)).pend = none ∧
     80 ≤ (79 : BitVec 10).toNat + 1 ∧ (78 : BitVec 10).toNat + 1 < 80 ∧ rxQueue m ≠ [] ∧ dataFits s 80 = true ∧
     (m.rx.map (·.arr)).Nodup ∧ (∀ x ∈ rxQueue m, x.numbered = false) ∧ (s.bep (epUrg 3)).fresh = false) ∧
    (let s := (withInst id).modBep (epBulk 3) fun e => { e with pend := some (List.replicate 80 0) }
     Heard s .bridge ∧ (s.bep (epBulk 3)).pend = some (List.replicate 80 0) ∧ (s.bep (epBulk 3)).seq = false ∧
     (List.replicate 80 (0 : Byte)).length ≤ (79 : BitVec 10).toNat + 1 ∧ dataFits s 80 = true ∧
     (78 : BitVec 10).toNat + 1 < (List.replicate 80 (0 : Byte)).length) ∧
    (let s := linked.modHdr (.mvf 3) fun h => { h with en := false }
     Heard s .bridge ∧ rxOff s 3 = true ∧ (s.bep (epBulk 3)).pend = none ∧ (s.bep (epBulk 3)).fresh = false) ∧
    (let s := linked.modBep (epBulk 3) fun e => { e with halted := true }
     Heard s .bridge ∧ (s.bep (epBulk 3)).halted = true) ∧
    (let s : State := { linked with hub := { linked.hub with brConf := false } }
     Heard s .bridge ∧ s.hub.brConf = false) := by
  refine ⟨?_, ?_, ?_, ?_, ?_⟩ <;> decide +kernel

theorem witness_RxQuota :
    Live live .mbr ∧
    (let v : Word := 0x00800081; (v.extractLsb' 16 10).toNat < (v.extractLsb' 0 10).toNat) ∧
    (let v : Word := 0x02000200; (v.extractLsb' 16 10).toNat = 512 ∧ (v.extractLsb' 0 10).toNat = 512) ∧
    (let s : State := { live with mbr := { live.mbr with qMin := #v[1, 0, 0, 0] } }
     Live s .mbr ∧ 512 < s.mbr.qMin[(0 : Inst)] + 512) := by decide

theorem witness_RxWatermarks :
    Live live .mbr ∧
    (let v : Word := 0x00010001; (v.extractLsb' 16 10).toNat ≠ 0 ∧ (v.extractLsb' 16 10).toNat ≤ (v.extractLsb' 0 10).toNat) ∧
    (let v : Word := 0x00010000; (v.extractLsb' 0 10).toNat < (v.extractLsb' 16 10).toNat) ∧
    (let v : Word := 0x00000001; (v.extractLsb' 16 10).toNat = 0) := by decide

theorem witness_EntryRounds :
    (Live linked .pwr ∧ linked.pwr.round = .none ∧ linked.pwr.low = none ∧ linked.pwr.exit = .none) ∧
    (let s : State := { (withInst id) with pwr := { live.pwr with idleLimit := 1 } }
     Live s .pwr ∧ s.pwr.idleLimit ≠ 0 ∧ allIdle s = true ∧ s.pwr.round = .none) ∧
    (Live (withPwr fun p => { p with round := .voting }) .pwr ∧ Live (withPwr fun p => { p with low := some .park }) .pwr) ∧
    ((∃ i, txPendingOn ((withInst id).modInst 3 fun m => m.setBuf 5 { state := .full }) i 1 = true) ∧
     fatal { linked with flt := { linked.flt with src := 1, lsev := linked.flt.lsev.set 0 3 } } = true ∧
     siding (linked.modHdr .pwr fun h => { h with siding := true }) .pwr = true ∧ siding linked .pwr = false ∧
     ({ linked with clk := { linked.clk with vbusy := true } } : State).clk.vbusy = true) ∧
    (let s := (withPwr fun p => { p with round := .voting }).modHdr (.mvf 3) fun h => { h with park := 1 }
     let t := s.modInst 2 fun m => { m with staging := [⟨4, [], 0, 0, 0⟩] }
     coreRuns t = true ∧ t.pwr.round = .voting ∧ override t 17 = none ∧ held t 17 = false ∧ policy t (partBlk 17) = 0 ∧
     busy t 17 = true ∧ policy t (partBlk 18) ≠ 0 ∧
     held { t with pwr := { t.pwr with consented := BitVec.allOnes 21 } } 17 = true) ∧
    ((linked.modHdr .mbr fun h => { h with inrst := true }).hdr (partBlk 14)).inrst = true ∧
    (partBlk 14 = .mbr ∧ (linked.hdr .mbr).inrst = false ∧ siding (linked.modHdr .mbr fun h => { h with siding := true }) .mbr = true) ∧
    (let s := withPwr fun p => { p with round := .voting }
     s.pending = [] ∧ coreRuns s = true ∧ entering s = false ∧ s.pwr.round ≠ .none) ∧
    (let s := (withChan fun j => { j with rcvWait := true }).modPort 7 fun p => { p with state := .sus, held := true }
     s.pending = [] ∧ coreRuns s = true ∧ entering s = false ∧ s.pwr.consented = 0 ∧ (s.chan 1).rcvWait = true ∧
     active s (.jx 1) = true ∧ (s.port 7).state = .sus ∧ (s.port 7).held = true ∧ (s.hdr (.prt 7)).inrst = false) ∧
    (let s := withPwr fun p => { p with round := .voting, consented := BitVec.allOnes 21 }
     coreRuns s = true ∧ s.pwr.round = .voting ∧ s.pwr.consented = BitVec.allOnes 21 ∧ s.clk.vbusy = false ∧
     firstRefusal s = none) ∧
    coreRuns (withPwr fun p => { p with round := .agreed }) = true ∧
    (∀ g ∈ [true, false],
      let s := withPwr fun p => { p with round := .preadySent, gated := g }
      s.pwr.clockOn = true ∧ s.pwr.round = .preadySent ∧ s.pwr.gated = g) ∧
    (∀ e ∈ [1, 2, 3],
      let s := withPwr fun p => { p with round := .preadySent, rstate := .heron, entry := e, consented := BitVec.allOnes 21 }
      s.pwr.clockOn = true ∧ s.pwr.round = .preadySent ∧ s.pending = [] ∧ firstRefusal s = none ∧ s.pwr.entry = e ∧
      s.pwr.rstate ≠ .park) := by
  refine ⟨?_, ?_, ?_, ?_, ?_, ?_, ?_, ?_, ?_, ?_, ?_, ?_, ?_⟩ <;> decide +kernel

theorem witness_StopReturnAndService :
    (∀ l ∈ [LowState.park, .retain, .heron],
      let s := withPwr fun p => { p with round := .preadySent, rstate := l }
      s.pwr.round = .preadySent ∧ s.pwr.clockOn = true ∧ s.pwr.rstate = l) ∧
    (linked.pwr.round ≠ .preadySent ∧ linked.pwr.clockOn = true ∧ linked.pwr.exit = .none ∧ linked.pwr.low ≠ some .park) ∧
    (∀ l ∈ [LowState.park, .retain, .heron],
      let s := withPwr fun p => { p with clockOn := false, low := some l }
      s.pwr.round = .none ∧ s.pwr.clockOn = false ∧ s.pwr.low = some l) ∧
    (let s := withPwr fun p => { p with low := some .heron, exit := .returned }
     s.pwr.round = .none ∧ s.pwr.clockOn = true ∧ s.pwr.exit = .returned) ∧
    (let s := (withPwr fun p => { p with low := some .park, exit := .parkReturn }).modPort 7 fun p =>
       { p with state := .sus, wakeen := true }
     let t : State := { s with aon := { s.aon with latched := 0x200 } }
     t.pwr.round = .none ∧ t.pwr.clockOn = true ∧ t.pwr.low = some .park ∧ t.pwr.exit = .parkReturn ∧ (t.port 7).state = .sus ∧
     (t.port 7).wakeen = true ∧ t.aon.latched.getLsbD (2 + (7 : Port).val) = true) ∧
    (∀ l ∈ [LowState.retain, .heron],
      let s := withPwr fun p => { p with low := some l, exit := .pgood }
      s.pwr.round = .none ∧ s.pwr.low = some l ∧ s.pwr.exit = .pgood) ∧
    (let s := withPwr fun p => { p with exit := .abort }
     s.pwr.round = .none ∧ s.pwr.exit = .abort) := by decide

theorem witness_WakeSources :
    (∀ code ∈ [(2 : Fin 22), 19],
      let s : State := { linked with aon := { linked.aon with armed := true, wakeEn := 0x080004 } }
      s.pwr.round = .none ∧ s.aon.armed = true ∧ 2 ≤ code.val ∧ code.val < 20 ∧ s.aon.wakeEn.getLsbD code.val = true ∧
      s.pwr.low ≠ some .heron) ∧
    (let s : State := { (withPwr fun p => { p with low := some .heron }) with
       aon := { linked.aon with armed := true, wakeEn := 0x080000, hrnMask := 0x20000 } }
     s.pwr.low = some .heron ∧ s.aon.hrnMask.getLsbD (19 - 2) = true) ∧
    (linked.pwr.round = .none ∧ linked.aon.armed = false ∧ ¬ 2 ≤ (1 : Fin 22).val ∧ ¬ (20 : Fin 22).val < 20) ∧
    (∀ e ∈ [ExitPhase.returned, .pgood],
      let s := withPwr fun p => { p with low := some .heron, exit := e }
      s.pwr.round = .none ∧ s.pwr.low = some .heron ∧ s.pwr.clockOn = true ∧ s.pwr.exit = e ∧ s.aon.committed = false) ∧
    (let s : State := { (withPwr fun p => { p with low := some .heron, exit := .returned }) with
       aon := { linked.aon with committed := true } }
     s.pwr.exit = .returned ∧ s.aon.committed = true) := by decide

theorem witness_Faults :
    (let s := (withHdr .bkp fun h => { h with err := 1 })
     coreRuns s = true ∧ (optByte s 6).getLsbD 0 = false ∧ srcBlk 20 = .bkp ∧ (s.hdr (srcBlk 20)).err ≠ 0 ∧
     s.flt.src.getLsbD 20 = false) ∧
    (let s := (withHdr .bkp fun h => { h with errLine := 1 })
     (s.hdr (srcBlk 20)).err = 0 ∧ (s.hdr (srcBlk 20)).err ||| (s.hdr (srcBlk 20)).errLine ≠ 0) ∧
    (let s : State := { (withHdr (.mvf 3) fun h => { h with sev := 3 }) with
       flt := { live.flt with src := 0x8000, mode := 0x8000, lsev := live.flt.lsev.set 15 2 } }
     s.flt.src.getLsbD 15 = true ∧ s.flt.mode.getLsbD 15 = true ∧ s.flt.lsev[15].toNat < (s.hdr (srcBlk 15)).sev.toNat ∧
     (s.hdr (srcBlk 15)).sev.toNat = 3 ∧ fatal s = false) ∧
    (let s : State := { live with opt := { live.opt with shadow := live.opt.shadow.set 1 0x10000 } }
     coreRuns s = true ∧ (optByte s 6).getLsbD 0 = true) ∧
    (let s := withHdr (.mvf 3) fun h => { h with inrst := true }
     Blk.mvf 3 ∈ fenceUnit (.mvf 3) ∧ (s.hdr (.mvf 3)).inrst = true ∧ (s.hdr (.mvf 3)).fenceAfter = false) ∧
    (coreRuns live = true ∧ (live.hdr (srcBlk 20)).err = 0 ∧ live.flt.src.getLsbD 20 = false) ∧
    (let s : State := { live with flt := { live.flt with src := 0x100000, lsev := live.flt.lsev.set 20 2, pinsev := 2 } }
     Live s .flt ∧ s.flt.src.getLsbD 20 = true ∧ (s.hdr (srcBlk 20)).err ||| (s.hdr (srcBlk 20)).errLine = 0 ∧
     s.flt.pinsev.toNat ≤ s.flt.lsev[20].toNat) ∧
    (∀ r ∈ [true, false],
      let s := withHdr .pwr fun h => { h with siding := true, inrst := r }
      Live s .flt ∧ (s.hdr .pwr).siding = true ∧ srcSet s .clk = false ∧ srcSet s .pwr = false ∧ fatal s = false ∧
      s.pwr.round = .none ∧ (s.hdr .pwr).inrst = r) ∧
    (let s : State := { live with pins := { live.pins with fuse := #v[0x1B6DB6DB, 0, 0, 0, 0x8001B71B, 0x40000001] } }
     (s.hdr .pwr).siding = false ∧ padLevelOf s .vsel1 (padOfCode (sfCode s .vsel1)) = some false) := by
  refine ⟨?_, ?_, ?_, ?_, ?_, ?_, ?_, ?_, ?_⟩ <;> decide +kernel

end Sys2Proof.Tests
end

section
/-! The static pin fuse map under parity (03 §3.5): what PIN_STAT.FPERR reports, and how a failing word acts. -/

namespace Sys2Proof.Machine

theorem sum_map_double {α : Type} (g : α → Nat) (l : List α) :
    (l.map fun x => 2 * g x).sum = 2 * (l.map g).sum := by
  induction l with
  | nil => rfl
  | cons x l ih => rw [List.map_cons, List.map_cons, List.sum_cons, List.sum_cons, ih, Nat.mul_add]

/-- The number that has bit `i` exactly where `f i` is false: the form of `fperr`, for any number of words. -/
def clearBits {n : Nat} (f : Fin n → Bool) : Nat :=
  ((List.finRange n).map fun i => if f i then 0 else 1 <<< i.val).sum

theorem fperr_eq_clearBits (s : State) : fperr s = clearBits (fuseOk s) := rfl

/-- Bit 0 speaks of the first word, the bits above it of the other words. -/
theorem clearBits_succ {n : Nat} (f : Fin (n + 1) → Bool) :
    clearBits f = 2 * clearBits (fun i => f i.succ) + (!f 0).toNat := by
  have head : (if f 0 then 0 else 1 <<< (0 : Fin (n + 1)).val) = (!f 0).toNat := by cases f 0 <;> rfl
  have tail : ((fun i => if f i then 0 else 1 <<< i.val) ∘ Fin.succ) =
      fun i : Fin n => 2 * (if f i.succ then 0 else 1 <<< i.val) := by
    funext i
    rw [Function.comp_apply, Fin.val_succ, Nat.shiftLeft_succ]
    cases f i.succ <;> rfl
  rw [clearBits, List.finRange_succ, List.map_cons, List.sum_cons, List.map_map, head, tail, sum_map_double,
    Nat.add_comm, clearBits]

theorem clearBits_testBit {n : Nat} (f : Fin n → Bool) (i : Fin n) : (clearBits f).testBit i.val = !f i := by
  induction n with
  | zero => exact i.elim0
  | succ n ih =>
    rw [clearBits_succ]
    cases i using Fin.cases with
    | zero =>
      rw [Fin.val_zero, Nat.testBit_zero, Nat.mul_add_mod]
      cases f 0 <;> rfl
    | succ i =>
      have half : (2 * clearBits (fun i => f i.succ) + (!f 0).toNat) / 2 = clearBits fun i => f i.succ := by
        have := Bool.toNat_lt (!f 0)
        omega
      rw [Fin.val_succ, Nat.testBit_succ, half, ih]

theorem fperr_testBit (s : State) (w : Fin 6) : (fperr s).testBit w.val = !fuseOk s w := by
  rw [fperr_eq_clearBits, clearBits_testBit]

theorem parityOf_zero : parityOf 0 = false := by decide

theorem fuseOk_of_blank {s : State} {w : Fin 6} (blank : s.pins.fuse[w] = 0) : fuseOk s w = true := by
  rw [fuseOk, blank, parityOf_zero, Bool.not_false]

theorem slotCode_of_failing_word {s : State} {p : CPin} (fails : fuseOk s p.place.1 = false) (lo : Nat) :
    slotCode s p lo = 0 :=
  if_neg (Bool.eq_false_iff.mp fails)

theorem codes_of_failing_word {s : State} (p : CPin) (fails : fuseOk s p.place.1 = false) :
    puCode s p = 0 ∧ sfCode s p = 0 :=
  ⟨slotCode_of_failing_word fails 0, slotCode_of_failing_word fails 3⟩

theorem device_bits_of_failing_fuse5 {s : State} (fails : fuseOk s 5 = false) :
    iov s = false ∧ fod s = true ∧ fuseLocked s = true := by
  simp only [iov, fod, fuseLocked, fails, Bool.false_and, Bool.not_false, Bool.true_or, and_self]

/-- Settles O11: FPERR is the number whose bits are the failing words, and every slot of a failing word has code 0. -/
theorem fuseParity : Obligations.FuseParity := by
  intro s w
  refine ⟨rfl, fperr_testBit s w, fuseOk_of_blank, fun n => codes_of_failing_word (.pwren n),
    fun n => codes_of_failing_word (.dd n), fun c => codes_of_failing_word (.flow c),
    fun c => codes_of_failing_word (.msgS c), fun fails => ?_, device_bits_of_failing_fuse5⟩
  obtain ⟨pu0, sf0⟩ := codes_of_failing_word .vsel0 fails
  obtain ⟨pu1, sf1⟩ := codes_of_failing_word .vsel1 fails
  obtain ⟨puF, sfF⟩ := codes_of_failing_word .fault fails
  exact ⟨pu0, sf0, pu1, sf1, puF, sfF⟩

end Sys2Proof.Machine
end

section
/-! SUPPORT. Frames of effects known by what they touch, writes of registers of a page, and what every reset leaves of the
backup page. -/

namespace Sys2Proof.Machine

/-! ### Frames of the effects of commands -/

/-- The frame of a command whose effect leaves the power fields alone. -/
theorem OnlyOn.frame {ps : List Part} {bs : List Blk} {s u : State} (h : OnlyOn ps bs s u) (hp : Part.pwr ∉ ps) :
    Frame ps bs s (settle u) := by
  obtain ⟨queue, parts, hdrs⟩ := h
  have pwr : u.pwr = s.pwr := parts .pwr hp
  exact frame_settle queue (congrArg Pwr.round pwr) parts hdrs

/-- An edge event raised after such an effect on no page header. -/
theorem OnlyOn.evt_frame {ps : List Part} {s u : State} (h : OnlyOn ps [] s u) (hp : Part.pwr ∉ ps) (b : Blk) (i : Nat) :
    HdrTook s (settle (evt u b i)) b (oneBit i) 0 ∧ Frame ps [b] s (settle (evt u b i)) := by
  have effect : OnlyOn ps [b] s (evt u b i) := (h.trans (evt_only u b i)).mono (by simp) (by simp)
  obtain ⟨_, parts, hdrs⟩ := h
  have pwr : (evt u b i).pwr = s.pwr := parts .pwr hp
  have page : (evt u b i).hdr b = hdrPlus (s.hdr b) (oneBit i) 0 := by rw [hdr_evt, hdrs b (by simp)]
  exact ⟨settle_took (congrArg Pwr.round pwr) page, effect.frame hp⟩

/-- A command without an effect. -/
theorem nothing_of_eq {c : Instr} {s : State} (h : exec c s = .next (settle s)) : Nothing c s :=
  gives_of_eq h (nothing_result s)

theorem rst_only (s : State) (r : Rst) : OnlyOn [.rst] [] s { s with rst := r } := by
  refine ⟨rfl, fun p hp => ?_, fun _ _ => rfl⟩
  cases p
  case rst => exact absurd List.mem_cons_self hp
  all_goals rfl

theorem bkp_only (s : State) (b : Bkp) : OnlyOn [.bkp] [] s { s with bkp := b } := by
  refine ⟨rfl, fun p hp => ?_, fun _ _ => rfl⟩
  cases p
  case bkp => exact absurd List.mem_cons_self hp
  all_goals rfl

/-- A write of a memory word outside the filter memory, of which alone the engine keeps old words (13 R337). -/
theorem memStore_only (s : State) {a : Nat} (w : Word) (rtm : 0x4000 ≤ a) :
    OnlyOn [.mem, .parBad] [] s (memStore s a w) := by
  have old : noteFlm s a = s := if_neg (by omega)
  rw [memStore, old]
  refine ⟨rfl, fun p hp => ?_, fun _ _ => rfl⟩
  cases p
  case mem | parBad => simp at hp
  all_goals rfl

/-! ### Writes of registers -/

theorem exec_registerWrite {s : State} (runs : coreRuns s = true) (addr : Half) (val : Word) :
    exec (.registerWrite addr val) s = .next (settle (writeWord s addr val)) := by
  have arm : exec (.registerWrite addr val) s = execRegisterWrite addr val s := rfl
  rw [arm, execRegisterWrite, coreCmd_eq runs]

/-- A block register outside a Block reset of its page takes the write (02 R38). -/
theorem writeWord_block {s : State} {a : Half} {b : Blk} {off : Nat} (place : placeOf a = .page b off)
    (noReset : (s.hdr b).inrst = false) (block : 0x40 ≤ off) (w : Word) : writeWord s a w = writeBlock s b off w := by
  have header : ¬ off < 0x40 := by omega
  rw [writeWord, place]
  simp [writePage, noReset, header]

/-! ### Resets of Core or wider reach -/

@[simp] theorem cutFuse_bkp (s : State) : (cutFuse s).bkp = s.bkp := by
  unfold cutFuse
  split
  · dsimp only
    split <;> rfl
  · rfl
  · rfl

@[simp] theorem cutOpt_bkp (s : State) : (cutOpt s).bkp = s.bkp := by
  unfold cutOpt
  split <;> rfl

theorem cleared_bkp (s : State) (keep : Bool) : (cleared s keep).bkp = { s.bkp with lock := false } := rfl

/-- Every source clears LOCK and keeps the rest of the backup page (02 R45, 05 Table 5.2). -/
@[simp] theorem assertSource_bkp (s : State) (src : Source) :
    (assertSource s src).bkp = { s.bkp with lock := false } := by
  simp only [assertSource, apply_ite State.bkp, State.setHdr_bkp, ite_self, cleared_bkp, cutOpt_bkp, cutFuse_bkp]

/-- A source that asserts while no reset is in progress is the only one of its reset and gives it its reach (05 R119). -/
theorem assertSource_running {s : State} (running : s.rst.phase = .run) (src : Source) :
    (assertSource s src).rst.phase = (if srcReach src = .whole then .b1 else .b2) ∧
    (assertSource s src).rst.reach = srcReach src ∧ (assertSource s src).rst.sources = [src] := by
  cases src <;> simp [assertSource, running, srcReach]

theorem phase_of_coreRuns {s : State} (runs : coreRuns s = true) : s.rst.phase = .run := by
  simp only [coreRuns, Bool.and_eq_true, beq_iff_eq] at runs
  obtain ⟨⟨running, _⟩, _⟩ := runs
  exact running

end Sys2Proof.Machine
end

section
/-! The retained memory's write protection (05 R133): what the words of a protected page take, and when WP and LOCK
change. -/

namespace Sys2Proof.Machine

theorem rtmStore_of_protected {s : State} {w : Fin 256} (prot : s.bkp.wp.getLsbD (w.val / 64) = true) (val : Word) :
    rtmStore s w val = evt s .bkp 0 := if_pos prot

theorem rtmStore_of_unprotected {s : State} {w : Fin 256} (free : s.bkp.wp.getLsbD (w.val / 64) = false) (val : Word) :
    rtmStore s w val = memStore s (rtmAddr w) val := if_neg (by simp [free])

theorem exec_rtmWrite {s : State} (runs : coreRuns s = true) (w : Fin 256) (val : Word) :
    exec (.rtmWrite w val) s = .next (settle (rtmStore s w val)) := by
  have arm : exec (.rtmWrite w val) s = execRtmWrite w val s := rfl
  rw [arm, execRtmWrite, coreCmd_eq runs]

/-- RTMPROT stands at 0x0580 (05 Table 5.13). -/
theorem writeWord_rtmprot {s : State} (noReset : (s.hdr .bkp).inrst = false) (val : Word) :
    writeWord s 0x0580 val =
      if s.bkp.lock then s else { s with bkp := { s.bkp with wp := val.setWidth 4, lock := val.getLsbD 8 } } :=
  writeWord_block (b := .bkp) (off := 0x80) rfl noReset (by decide) val

/-- Settles O13: the words of a protected page refuse every write with WPVIOL, RTMPROT itself obeys LOCK, and of the resets
only step B1 clears WP. -/
theorem retainedMemoryProtection : Obligations.RetainedMemoryProtection := by
  intro s w val a runs
  refine ⟨fun prot => ?_, fun free wf => ?_, fun noReset locked => ?_, fun noReset unlocked => ?_, ?_, fun key sent => ?_, ?_, ?_⟩
  · refine gives_of_eq (exec_rtmWrite runs w val) ?_
    rw [rtmStore_of_protected prot]
    exact (OnlyOn.refl [] [] s).evt_frame (by decide) .bkp 0
  · refine gives_of_eq (exec_rtmWrite runs w val) ?_
    rw [rtmStore_of_unprotected free]
    have stored : (settle (memStore s (rtmAddr w) val)).mem = memSetWord s.mem (rtmAddr w) val := by
      rw [settle_mem, memStore_mem]
    rw [stored]
    refine ⟨memWord_memSetWord _ _ wf, fun outside => memGet_memSetWord_ne val wf ?_, ?_⟩
    · unfold rtmAddr
      omega
    · exact (memStore_only s val (Nat.le_add_right _ _)).frame (by decide)
  · exact nothing_of_eq (by rw [exec_registerWrite runs, writeWord_rtmprot noReset, if_pos locked])
  · refine gives_of_eq (exec_registerWrite runs _ val) ?_
    rw [writeWord_rtmprot noReset, if_neg (by simp [unlocked])]
    exact ⟨settle_bkp _, (bkp_only s _).frame (by decide)⟩
  · exact gives_of_eq rfl ((settle_bkp _).trans (assertSource_bkp s .pin))
  · have sends : exec .swr s = .next (settle (assertSource s .swr)) := if_pos (by simp [runs, key, sent])
    exact gives_of_eq sends ((settle_bkp _).trans (assertSource_bkp s .swr))
  · exact gives_of_eq rfl ((settle_bkp _).trans (assertSource_bkp (setRail s .aon false) .por))
  · intro u
    have ends : exec .fuseSense u = .next (settle (endB1 u)) := rfl
    exact gives_of_eq ends (by simp [endB1])

end Sys2Proof.Machine
end

section
/-! The watchdog's kicks (05 R124). -/

namespace Sys2Proof.Machine

theorem kickWrite_of_disabled {s : State} (off : s.rst.wdgEn = false) (v : Byte) : kickWrite s v = s :=
  if_pos (by simp [off])

theorem kickWrite_first {s : State} (on : s.rst.wdgEn = true) (unarmed : s.rst.wdgArmed = false) :
    kickWrite s 0x5A = { s with rst := { s.rst with wdgArmed := true } } := by
  simp [kickWrite, on, unarmed]

theorem kickWrite_second {s : State} (on : s.rst.wdgEn = true) (armed : s.rst.wdgArmed = true) :
    kickWrite s 0xA5 = { s with rst := { s.rst with wdgArmed := false, wdgFrames := 0, wdgWarned := false } } := by
  simp [kickWrite, on, armed]

/-- The writes of RST_WDG_KICK that are bad kicks: the second value too early, another value, the first value twice. -/
theorem kickWrite_bad {s : State} {v : Byte} (on : s.rst.wdgEn = true)
    (bad : (v = 0xA5 ∧ s.rst.wdgArmed = false) ∨ (v ≠ 0x5A ∧ v ≠ 0xA5) ∨ (v = 0x5A ∧ s.rst.wdgArmed = true)) :
    kickWrite s v = badKick s := by
  rcases bad with ⟨early, unarmed⟩ | ⟨noFirst, noSecond⟩ | ⟨again, armed⟩
  · simp [kickWrite, on, early, unarmed]
  · have first : v ≠ 90#8 := noFirst
    have second : v ≠ 165#8 := noSecond
    simp [kickWrite, on, first, second]
  · simp [kickWrite, on, again, armed]

/-- RST_WDG_KICK stands at 0x0358 and takes bits [7:0] (05 Table 5.10). -/
theorem writeWord_wdgKick {s : State} (noReset : (s.hdr .rst).inrst = false) (v : Byte) :
    writeWord s 0x0358 (v.setWidth 32) = kickWrite s v := by
  have byte : (v.setWidth 32).setWidth 8 = v := BitVec.setWidth_setWidth_of_le v (by decide)
  rw [writeWord_block (b := .rst) (off := 0x58) rfl noReset (by decide)]
  exact congrArg (kickWrite s) byte

theorem exec_wdgKickFirst {s : State} (runs : coreRuns s = true) :
    exec .wdgKickFirst s = .next (settle (kickWrite s 0x5A)) := by
  have arm : exec .wdgKickFirst s = execWdgKickFirst s := rfl
  rw [arm, execWdgKickFirst, coreCmd_eq runs]

theorem exec_wdgKickSecond {s : State} (runs : coreRuns s = true) :
    exec .wdgKickSecond s = .next (settle (kickWrite s 0xA5)) := by
  have arm : exec .wdgKickSecond s = execWdgKickSecond s := rfl
  rw [arm, execWdgKickSecond, coreCmd_eq runs]

/-- With BADWARN 1 a bad kick only warns: BADKICK, and ARMED clears. -/
theorem badKick_warns {s : State} (warn : s.rst.wdgBadwarn = true) :
    (settle (badKick s)).rst = { s.rst with wdgArmed := false } ∧ HdrTook s (settle (badKick s)) .rst (oneBit 1) 0 ∧
    Frame [.rst] [.rst] s (settle (badKick s)) := by
  have effect : badKick s = evt { s with rst := { s.rst with wdgArmed := false } } .rst 1 := if_pos warn
  rw [effect]
  exact ⟨settle_rst _, (rst_only s _).evt_frame (by decide) .rst 1⟩

/-- With BADWARN 0 a bad kick asserts WDG, whose reach is Device (05 Table 5.1). -/
theorem badKick_resets {s : State} (running : s.rst.phase = .run) (noWarn : s.rst.wdgBadwarn = false) :
    (settle (badKick s)).rst.phase = .b2 ∧ (settle (badKick s)).rst.reach = .device ∧
    (settle (badKick s)).rst.sources = [.wdg] := by
  have effect : badKick s = assertSource s .wdg := if_neg (by simp [noWarn])
  rw [effect, settle_rst]
  exact assertSource_running running .wdg

/-- Settles O19: 0x5A arms and 0xA5 then restarts the period; every other write is a bad kick, whose effect BADWARN
chooses; without EN nothing happens. -/
theorem watchdogKicks : Obligations.WatchdogKicks := by
  rintro s v ⟨runs, noReset⟩
  refine ⟨fun off => ⟨?_, ?_⟩, fun on unarmed => ?_, fun on armed => ?_, fun on bad => ?_⟩
  · exact nothing_of_eq (by rw [exec_wdgKickFirst runs, kickWrite_of_disabled off])
  · exact nothing_of_eq (by rw [exec_wdgKickSecond runs, kickWrite_of_disabled off])
  · refine gives_of_eq (exec_wdgKickFirst runs) ?_
    rw [kickWrite_first on unarmed]
    exact ⟨settle_rst _, (rst_only s _).frame (by decide)⟩
  · refine gives_of_eq (exec_wdgKickSecond runs) ?_
    rw [kickWrite_second on armed]
    exact ⟨settle_rst _, (rst_only s _).frame (by decide)⟩
  · have kick : exec (.registerWrite 0x0358 (v.setWidth 32)) s = .next (settle (badKick s)) := by
      rw [exec_registerWrite runs, writeWord_wdgKick noReset, kickWrite_bad on bad]
    exact ⟨fun warn => gives_of_eq kick (badKick_warns warn),
      fun noWarn => gives_of_eq kick (badKick_resets (phase_of_coreRuns runs) noWarn)⟩

end Sys2Proof.Machine
end

section
/-! The Sluice pins, their counts and the low-water mark after a change of the pool (13 R362, 02 Table 2.12). -/

namespace Sys2Proof.Machine

theorem sum_allInsts (f : Inst → Nat) : (allInsts.map f).sum = f 0 + f 1 + f 2 + f 3 := by
  simp [allInsts, Nat.add_assoc]

/-- Events of a page one set after another. -/
theorem hdrPlus_evts (h : Hdr) (e e' x : Word) : hdrPlus (hdrPlus h e x) e' 0 = hdrPlus h (e ||| e') x := by
  have noErr : ∀ y : Word, y ||| 0 = y := fun _ => BitVec.or_zero
  simp only [hdrPlus, BitVec.or_assoc, or_and_or, noErr]

/-- What R362 makes of the pin of channel `c`. -/
def sluiceNext (s : State) (c : Chan) : Bool :=
  flowNext s.mbr.wmHi[c] s.mbr.wmLo[c] (chUse s c) s.mbr.flow[c]

/-- The re-evaluation asserts the pin of channel `c`. -/
def sluiceRises (s : State) (c : Chan) : Bool := sluiceNext s c && !s.mbr.flow[c]

theorem flowEval_of_rise {s : State} {c : Chan} (rises : sluiceRises s c = true) :
    flowEval s c = evt { s with mbr := { s.mbr with
      flow := s.mbr.flow.set c.val (sluiceNext s c) c.isLt,
      flowCnt := s.mbr.flowCnt.set c.val (inc16 s.mbr.flowCnt[c]) c.isLt } } .mbr (8 + c.val) :=
  if_pos rises

theorem flowEval_of_no_rise {s : State} {c : Chan} (stays : sluiceRises s c = false) :
    flowEval s c = { s with mbr := { s.mbr with flow := s.mbr.flow.set c.val (sluiceNext s c) c.isLt } } :=
  if_neg (Bool.eq_false_iff.mp stays)

/-- One evaluation moves its own pin, and the count of an assertion. -/
theorem flowEval_mbr (s : State) (c : Chan) :
    (flowEval s c).mbr = { s.mbr with
      flow := s.mbr.flow.set c.val (sluiceNext s c) c.isLt,
      flowCnt := if sluiceRises s c then s.mbr.flowCnt.set c.val (inc16 s.mbr.flowCnt[c]) c.isLt else s.mbr.flowCnt } := by
  cases rise : sluiceRises s c with
  | true => rw [flowEval_of_rise rise, if_pos rfl, evt_mbr]
  | false => rw [flowEval_of_no_rise rise, if_neg Bool.false_ne_true]

/-- An assertion raises FLOWx of the MBR page. -/
theorem flowEval_hdr_mbr (s : State) (c : Chan) :
    (flowEval s c).hdr .mbr = hdrPlus (s.hdr .mbr) (if sluiceRises s c then oneBit (8 + c.val) else 0) 0 := by
  cases rise : sluiceRises s c with
  | true => rw [flowEval_of_rise rise, hdr_evt]; rfl
  | false => rw [flowEval_of_no_rise rise]; exact (hdrPlus_zero _).symm

theorem flowEval_mvf (s : State) (c : Chan) : (flowEval s c).mvf = s.mvf := (flowEval_only s c).2.1 .mvf (by decide)

theorem flowEval_dbg (s : State) (c : Chan) : (flowEval s c).dbg = s.dbg := (flowEval_only s c).2.1 .dbg (by decide)

/-! ### The count of a channel and the number of held entries follow the MVF parts alone -/

theorem chUse_congr {s t : State} (h : t.mvf = s.mvf) (c : Chan) : chUse t c = chUse s c := by
  simp only [chUse, State.inst, h]

theorem heldAll_congr {s t : State} (h : t.mvf = s.mvf) : heldAll t = heldAll s := by
  have each : heldBy t = heldBy s := funext fun i => by simp only [heldBy, State.inst, h]
  rw [heldAll, each, heldAll]

/-- The evaluation of one pin does not meet that of the other. -/
theorem sluiceNext_flowEval_ne (s : State) {c d : Chan} (h : d ≠ c) : sluiceNext (flowEval s c) d = sluiceNext s d := by
  have apart : c.val ≠ d.val := fun e => h (Fin.ext e.symm)
  simp [sluiceNext, chUse_congr (flowEval_mvf s c), flowEval_mbr, apart]

theorem sluiceRises_flowEval_ne (s : State) {c d : Chan} (h : d ≠ c) :
    sluiceRises (flowEval s c) d = sluiceRises s d := by
  have apart : c.val ≠ d.val := fun e => h (Fin.ext e.symm)
  simp [sluiceRises, sluiceNext_flowEval_ne s h, flowEval_mbr, apart]

/-! ### After a change of the pool -/

theorem poolChanged_mvf (s : State) : (poolChanged s).mvf = s.mvf := (poolChanged_only s).2.1 .mvf (by decide)

theorem poolChanged_inst (s : State) (i : Inst) : (poolChanged s).inst i = s.inst i := by
  simp only [State.inst, poolChanged_mvf]

theorem poolChanged_dbg (s : State) :
    (poolChanged s).dbg = { s.dbg with lowest := min s.dbg.lowest (512 - heldAll s) } := by
  have mvf : (flowEval (flowEval s 0) 1).mvf = s.mvf := by rw [flowEval_mvf, flowEval_mvf]
  have dbg : (flowEval (flowEval s 0) 1).dbg = s.dbg := by rw [flowEval_dbg, flowEval_dbg]
  simp only [poolChanged, poolFree, heldAll_congr mvf, dbg]

/-- Of the MBR registers only the pins and their counts move. -/
theorem poolChanged_mbr (s : State) :
    (poolChanged s).mbr = { s.mbr with flow := (poolChanged s).mbr.flow, flowCnt := (poolChanged s).mbr.flowCnt } := by
  simp only [poolChanged, flowEval_mbr]

theorem poolChanged_flow (s : State) (c : Chan) : (poolChanged s).mbr.flow[c] = sluiceNext s c := by
  have other : sluiceNext (flowEval s 0) 1 = sluiceNext s 1 := sluiceNext_flowEval_ne s (by decide)
  match c with
  | 0 => simp [poolChanged, flowEval_mbr]
  | 1 => simp [poolChanged, flowEval_mbr (flowEval s 0) 1, other]

theorem poolChanged_flowCnt (s : State) (c : Chan) :
    (poolChanged s).mbr.flowCnt[c] = if sluiceRises s c then inc16 s.mbr.flowCnt[c] else s.mbr.flowCnt[c] := by
  have other : sluiceRises (flowEval s 0) 1 = sluiceRises s 1 := sluiceRises_flowEval_ne s (by decide)
  match c with
  | 0 => simp [poolChanged, flowEval_mbr, apply_ite (fun v : Vector Nat 2 => v[0])]
  | 1 => simp [poolChanged, flowEval_mbr, other, apply_ite (fun v : Vector Nat 2 => v[1])]

theorem poolChanged_hdr_mbr (s : State) :
    (poolChanged s).hdr .mbr =
      hdrPlus (s.hdr .mbr) ((if sluiceRises s 0 then oneBit 8 else 0) ||| (if sluiceRises s 1 then oneBit 9 else 0)) 0 := by
  have other : sluiceRises (flowEval s 0) 1 = sluiceRises s 1 := sluiceRises_flowEval_ne s (by decide)
  have pins : (poolChanged s).hdr .mbr = (flowEval (flowEval s 0) 1).hdr .mbr := rfl
  rw [pins, flowEval_hdr_mbr, flowEval_hdr_mbr, hdrPlus_evts, other]
  rfl

/-- An effect that gave the MBR page the events `evts` and the errors `errs`, left the debug page alone, and then reports its
change of the pool. -/
theorem poolMoved_settle {s u : State} {evts errs : Word} (page : u.hdr .mbr = hdrPlus (s.hdr .mbr) evts errs)
    (dbg : u.dbg = s.dbg) (pwr : u.pwr = s.pwr) : PoolMoved s (settle (poolChanged u)) u.mbr evts errs := by
  have rose (c : Chan) : ((poolChanged u).mbr.flow[c] && !u.mbr.flow[c]) = sluiceRises u c := by
    rw [poolChanged_flow, sluiceRises]
  have mvf : (settle (poolChanged u)).mvf = u.mvf := by rw [settle_mvf, poolChanged_mvf]
  have round : (poolChanged u).pwr.round = s.pwr.round := by
    rw [(poolChanged_only u).2.1 .pwr (by decide), pwr]
  have hdr : (poolChanged u).hdr .mbr = hdrPlus (s.hdr .mbr)
      (evts ||| (if sluiceRises u 0 then oneBit 8 else 0) ||| (if sluiceRises u 1 then oneBit 9 else 0)) errs := by
    rw [poolChanged_hdr_mbr, page, hdrPlus_evts, BitVec.or_assoc]
  simp only [PoolMoved, settle_mbr, settle_dbg, rose, chUse_congr mvf, heldAll_congr mvf]
  refine ⟨poolChanged_mbr u, fun c => ⟨?_, poolChanged_flowCnt u c⟩, settle_took round hdr, ?_⟩
  · rw [poolChanged_flow, sluiceNext, flowNext]
  · rw [poolChanged_dbg, dbg]

end Sys2Proof.Machine
end

section
/-! Acknowledgements of delivered messages (13 R357). -/

namespace Sys2Proof.Machine

theorem exec_rxack {s : State} {i : Inst} (live : Live s (.mvf i)) (upto : Half) :
    exec (.rxack i upto) s = .next (settle (rxAck s i upto)) := by
  have arm : exec (.rxack i upto) s = execRxack i upto s := rfl
  rw [arm, execRxack, pageCmd_eq live]

theorem rxAck_of_mailbox {s : State} {i : Inst} (mailbox : (s.inst i).cmode = true) (upto : Half) :
    rxAck s i upto = s := if_pos mailbox

/-- In queue mode the READ entries up to UPTO are freed; R357 counts the distance modulo 65,536. -/
theorem rxAck_of_queue {s : State} {i : Inst} (queue : (s.inst i).cmode = false) (upto : Half) :
    rxAck s i upto = poolChanged (s.modInst i fun m =>
      { m with
        rx := m.rx.filter fun e =>
          decide (¬ (e.state = .read ∧ (upto.toNat + 65536 - e.dnum.toNat) % 65536 < 32768)) }) := by
  have distance (d : Half) : (upto - d).toNat = (upto.toNat + 65536 - d.toNat) % 65536 := by
    rw [BitVec.toNat_sub]
    omega
  simp only [rxAck, queue, Bool.false_eq_true, if_false, rxFree, distance, decide_not, Bool.decide_and]

/-- Settles O53: RXACK filters the held entries by state and delivery number, and the change of the pool is reported as R362
says. -/
theorem rxAck_spec : Obligations.RxAck := by
  intro s i upto live
  refine ⟨fun mailbox => ?_, fun queue => ?_⟩
  · exact nothing_of_eq (by rw [exec_rxack live, rxAck_of_mailbox mailbox])
  · refine gives_of_eq (exec_rxack live upto) ?_
    rw [rxAck_of_queue queue]
    refine ⟨?_, fun n other => ?_, poolMoved_settle (hdrPlus_zero _).symm rfl rfl, ?_⟩
    · rw [settle_inst, poolChanged_inst, State.inst_modInst]
    · rw [settle_inst, poolChanged_inst, State.inst_modInst_ne _ _ _ _ other]
    · exact ((modInst_only s i _).trans (poolChanged_only _)).frame (by decide)

end Sys2Proof.Machine
end

section
/-! Writes of the quotas (13 R342). -/

namespace Sys2Proof.Machine

/-- A quota write that R342 ignores: MIN above MAX, or the minima would sum to more than the pool. -/
def quotaBad (s : State) (i : Inst) (mn mx : Nat) : Prop :=
  mx < mn ∨ 512 < (allInsts.map fun m => if m = i then mn else s.mbr.qMin[m]).sum

theorem exec_mbrQuotaWrite {s : State} (live : Live s .mbr) (i : Inst) (val : Word) :
    exec (.mbrQuotaWrite i val) s = .next (settle (quotaWrite s i val)) := by
  have arm : exec (.mbrQuotaWrite i val) s = execMbrQuotaWrite i val s := rfl
  rw [arm, execMbrQuotaWrite, pageCmd_eq live]

theorem quotaWrite_of_bad {s : State} {i : Inst} {val : Word} (bad : quotaBad s i (fld val 0 10) (fld val 16 10)) :
    quotaWrite s i val = evt s .mbr 10 := if_pos bad

theorem quotaWrite_of_good {s : State} {i : Inst} {val : Word} (good : ¬ quotaBad s i (fld val 0 10) (fld val 16 10)) :
    quotaWrite s i val = { s with mbr := { s.mbr with
      qMin := s.mbr.qMin.set i.val (fld val 0 10) i.isLt, qMax := s.mbr.qMax.set i.val (fld val 16 10) i.isLt } } :=
  if_neg good

theorem getElem_set_inst (v : Vector Nat 4) (i j : Inst) (n : Nat) :
    (v.set i.val n i.isLt)[j] = if j = i then n else v[j] := by
  simp [Vector.getElem_set, Fin.ext_iff, eq_comm]

/-- With held(n) at or above MAX, n is allocated no more (13 R341). -/
theorem canAlloc_of_full {s : State} {i : Inst} (full : s.mbr.qMax[i] ≤ (s.inst i).rx.length) : canAlloc s i = false := by
  have noMore : decide (heldBy s i < s.mbr.qMax[i]) = false := decide_eq_false (Nat.not_lt.mpr full)
  rw [canAlloc, noMore, Bool.and_false, Bool.false_and]

/-- Settles O55: QREJ and nothing else for a bad pair; else MIN and MAX of n, and a MAX at or below held(n) only stops
allocations. -/
theorem rxQuota : Obligations.RxQuota := by
  intro s i val live mx mn mins bad
  have bad_iff : bad ↔ quotaBad s i (fld val 0 10) (fld val 16 10) := by
    rw [quotaBad, sum_allInsts]
    rfl
  refine ⟨fun h => ?_, fun h => ?_⟩
  · refine gives_of_eq (exec_mbrQuotaWrite live i val) ?_
    rw [quotaWrite_of_bad (bad_iff.mp h)]
    exact ⟨by rw [settle_mbr, evt_mbr], (OnlyOn.refl [] [] s).evt_frame (by decide) .mbr 10⟩
  · refine gives_of_eq (exec_mbrQuotaWrite live i val) ?_
    rw [quotaWrite_of_good (mt bad_iff.mpr h)]
    refine ⟨?_, fun j => ?_, settle_mvf _, fun full => canAlloc_of_full ?_, (mbr_only s _).frame (by decide)⟩
    · simp only [settle_mbr]
    · simp only [settle_mbr, getElem_set_inst]
      exact ⟨rfl, rfl⟩
    · simp only [settle_mbr, settle_inst, getElem_set_inst]
      exact full

end Sys2Proof.Machine
end
